-- ==== Sys2Proof/Word.lean ====
section
/-! DEFINITION. The word types of the part: the bytes and fields of the show line, and engine time. -/

namespace Sys2Proof

/-- A byte of the show line or of a bank (R203). -/
abbrev Byte := BitVec 8

/-- A 2-byte field (R203). -/
abbrev Half := BitVec 16

/-- A 4-byte field (R203). -/
abbrev Word := BitVec 32

/-- Engine time: whole milliseconds, wrapping from 4,294,967,295 to 0 (R3). -/
abbrev Time := BitVec 32

/-- A channel mask of 3 bytes: bit k stands for channel k + 1 (R85, R203). -/
abbrev ChanMask := BitVec 24

/-- A channel, held as its number less one (channels 1 to 24). -/
abbrev Chan := Fin 24

/-- A trigger input, held as its number less one (IN1 to IN4). -/
abbrev Input := Fin 4

end Sys2Proof
end

