-- ==== Sys2Proof/Syntax.lean ====
section
/-! DEFINITION. The commands: one constructor of `Instr` for each row of the opcode table. A message row carries
the address byte and the SEQ of its frame and its payload fields at the widths of R208. -/

namespace Sys2Proof

/-- The level of a line. -/
inductive Level where
  | low
  | high
  deriving DecidableEq, Repr

/-- The address byte and the sequence byte of a host frame (R165, R204). -/
structure Hdr where
  addr : Byte
  seq : Byte
  deriving DecidableEq, Repr

/-- One (id, value) pair of CONFIGURE (R179, R208). -/
structure RawPair where
  id : Byte
  value : Word
  deriving DecidableEq, Repr

/-- One output record of PATCH as it stands on the line (R208). -/
structure RawOutput where
  source : Byte
  law : Byte
  threshold : Half
  min : Half
  deriving DecidableEq, Repr

/-- One action record of CUE_ACTIONS as it stands on the line (R209). -/
structure RawAction where
  channel : Byte
  target : Half
  time : Word
  delay : Half
  curve : Byte
  deriving DecidableEq, Repr

/-- One point record of CURVE_POINTS as it stands on the line (R209). -/
structure RawPoint where
  x : Half
  y : Half
  deriving DecidableEq, Repr

/-- A message of the show line with its command payload (R206, R208). ARM carries its condition (5 bytes) and its
action (11 bytes) as bytes, since their unused bytes are reserved (R209). -/
inductive Message where
  | identify
  | readStatus
  | configure (pairs : List RawPair)
  | readConfig (first count : Byte)
  | patch (first : Byte) (records : List RawOutput)
  | readPatch (first count : Byte)
  | reset (mode : Byte)
  | editCurve (id count : Byte)
  | curvePoints (first : Byte) (points : List RawPoint)
  | editCue (cue : Half)
  | cueActions (records : List RawAction)
  | cueFollow (follow : Word)
  | editCommit
  | editAbort
  | deleteCue (cue : Half)
  | dropCurve (id : Byte)
  | readCue (cue : Half) (first : Byte)
  | readCurve (id first : Byte)
  | listCues (after : Half)
  | go
  | goTo (cue : Half)
  | back
  | pause
  | resume
  | release (time : Half)
  | readPlayer (part first : Byte)
  | fade (mask : ChanMask) (target : Half) (time : Word) (curve tag : Byte)
  | park (mask : ChanMask) (level : Half)
  | unpark (mask : ChanMask)
  | setMaster (level time : Half)
  | setBlackout (state : Byte)
  | readChannels (first count : Byte)
  | arm (slot mode : Byte) (condition action : List Byte)
  | disarm (slot : Byte)
  | readArm (slot : Byte)
  | poll (ack : Byte)
  | storeShow
  | loadShow
  | readMemory
  deriving DecidableEq, Repr

/-- The commands of the part, one constructor for each row of the opcode table, in the table's order. -/
inductive Instr where
  /-- Power is applied with these straps on ADDR5..ADDR0 and RATE1..RATE0. -/
  | powerOn (addr : BitVec 6) (rate : BitVec 2)
  /-- RST# goes low with these straps. -/
  | rstPinLow (addr : BitVec 6) (rate : BitVec 2)
  | powerLoss
  | startUpLoad
  /-- The stop bit of a character ends on RXD; `framing` says that it was 0. -/
  | receiveCharacter (byte : Byte) (framing : Bool)
  | frameGapTimeout
  | replyStart
  | replyEnd
  | identify (h : Hdr)
  | readStatus (h : Hdr)
  | configure (h : Hdr) (pairs : List RawPair)
  | readConfig (h : Hdr) (first count : Byte)
  | patch (h : Hdr) (first : Byte) (records : List RawOutput)
  | readPatch (h : Hdr) (first count : Byte)
  | reset (h : Hdr) (mode : Byte)
  | editCurve (h : Hdr) (id count : Byte)
  | curvePoints (h : Hdr) (first : Byte) (points : List RawPoint)
  | editCue (h : Hdr) (cue : Half)
  | cueActions (h : Hdr) (records : List RawAction)
  | cueFollow (h : Hdr) (follow : Word)
  | editCommit (h : Hdr)
  | editAbort (h : Hdr)
  | deleteCue (h : Hdr) (cue : Half)
  | dropCurve (h : Hdr) (id : Byte)
  | readCue (h : Hdr) (cue : Half) (first : Byte)
  | readCurve (h : Hdr) (id first : Byte)
  | listCues (h : Hdr) (after : Half)
  | go (h : Hdr)
  | goTo (h : Hdr) (cue : Half)
  | back (h : Hdr)
  | pause (h : Hdr)
  | resume (h : Hdr)
  | release (h : Hdr) (time : Half)
  | readPlayer (h : Hdr) (part first : Byte)
  | fade (h : Hdr) (mask : ChanMask) (target : Half) (time : Word) (curve tag : Byte)
  | park (h : Hdr) (mask : ChanMask) (level : Half)
  | unpark (h : Hdr) (mask : ChanMask)
  | setMaster (h : Hdr) (level time : Half)
  | setBlackout (h : Hdr) (state : Byte)
  | readChannels (h : Hdr) (first count : Byte)
  | arm (h : Hdr) (slot mode : Byte) (condition action : List Byte)
  | disarm (h : Hdr) (slot : Byte)
  | readArm (h : Hdr) (slot : Byte)
  | poll (h : Hdr) (ack : Byte)
  | storeShow (h : Hdr)
  | loadShow (h : Hdr)
  | readMemory (h : Hdr)
  | frameEvent
  | armCueDoneArrival
  | scheduledStartExpiry
  | followExpiry
  | editIdleTimeout
  /-- This input line now stands at this level; the part sees it at a sample. -/
  | inputLineChange (i : Input) (level : Level)
  /-- The debounce wait of this input ends; `playerFirst` says which of the player and the arm monitor takes the
  event of a GO-role input first (R124 lets either). -/
  | debounceExpiry (i : Input) (playerFirst : Bool)
  | pwmPeriodBoundary
  | chainShiftEnd
  | silenceTimerExpiry
  /-- The memory reports the end of the erase: all blank, or not. -/
  | eraseEnd (complete : Bool)
  /-- The memory reports the last programming write: every write taken, or not. -/
  | programmingEnd (taken : Bool)
  /-- The read-back ends: every byte read back as staged or not, and the magic read back correctly or not. -/
  | verifyEnd (same magicRead : Bool)
  | storePhaseLimit
  | rstPinHigh
  deriving DecidableEq, Repr

end Sys2Proof
end

