-- ==== Sys2Proof/Config.lean ====
section
/-! DEFINITION. What one part fixes and the spec leaves open: constants without a body, so that nothing can
be proved of their values. -/

namespace Sys2Proof

/-- The design revision byte of the part (R177 gives only its range, 1 to 255). Log entry 12. -/
opaque Config.revision : Byte

/-- The value written over a target bank's magic at the acceptance of a store (R193 says only that it does not
match); the argument numbers the free values taken. Log entry 10. -/
opaque Config.clearedMagic : Nat → Word

/-- The byte at an address of a bank that is partly erased or partly written (R199, R197); the first argument
numbers the free values taken. Log entry 11. -/
opaque Config.partialByte : Nat → Nat → Byte

/-- Which of the three writes of PROGRAMMING was in progress when it was stopped (R195, R199); the argument numbers
the free values taken. Log entry 11. -/
opaque Config.stoppedWrite : Nat → Nat

/-- Which of several events due at one instant is taken first, where the spec says either may be; the argument
numbers the free values taken. Log entry 3. -/
opaque Config.choice : Nat → Nat

end Sys2Proof
end

