-- ==== Sys2Proof/Machine/State.lean ====
section
/-! DEFINITION. The state of the part, block by block, as plain data, and its value right after power-on. -/

namespace Sys2Proof.Machine

/-! ## Outcomes -/

/-- The reasons the part stops with a fault: there are none. The spec gives every command an effect, a refusal
status in a reply, or no effect. -/
inductive Fault where
  deriving DecidableEq, Repr

/-- The reasons a command is refused by the MODEL (a refusal status of the part is a reply, not this). -/
inductive Refusal where
  /-- Raised only by an arm of `exec` whose command has no meaning yet; no arm raises it. Safe. -/
  | notModelled (mnemonic : String)
  deriving DecidableEq, Repr

/-! ## Values shared by the blocks -/

/-- A table of `n` entries. -/
abbrev Table (α : Type) (n : Nat) := Vector α n

/-- The status codes of replies (R176). -/
inductive Status where
  | done | accepted | badKind | badLength | badValue | wrongState | busy | inUse | noSpace | notFound
  | duplicate | parked | endOfList | incomplete | badShape
  deriving DecidableEq, Repr

/-- What an owning block returns for a message: the status, and the reply data after it (R170, R171). -/
structure Resp where
  status : Status
  data : List Byte
  deriving DecidableEq, Repr

/-- The four starts (R161, R178). -/
inductive Reason where
  | power | pin | cold | warm
  deriving DecidableEq, Repr

/-- OFF: no power. HELD: RST# is low. LOADING: the banks are being read at a start (R191). RUNNING: after it. -/
inductive Phase where
  | off | held | loading | running
  deriving DecidableEq, Repr

/-- The owner of a fade (R6); a DIRECT owner carries its tag. -/
inductive Owner where
  | cue (n : Nat)
  | direct (tag : Nat)
  | release
  deriving DecidableEq, Repr

/-- The last_owner field of a channel record (R1). -/
inductive LastOwner where
  | nobody
  | owned (o : Owner)
  | park
  deriving DecidableEq, Repr

/-- How a fade, a cue or a batch ended, as reports carry it (R79, R92). -/
inductive How where
  | completed | cut
  deriving DecidableEq, Repr

/-- Where a GO comes from (R55). -/
inductive Source where
  | host | group | arm | follow | input | silence
  deriving DecidableEq, Repr

/-- A bank, 0 or 1. -/
abbrev Bank := Fin 2

/-! ## The pins the outside world drives -/

/-- RST#, the straps and the trigger lines. `lines` is the level at which each line stands now. -/
structure Pins where
  rstLow : Bool
  strapAddr : BitVec 6
  strapRate : BitVec 2
  lines : Table Level 4
  deriving DecidableEq, Repr

/-! ## Clock and fade engine (chapter 1, chapter 4) -/

/-- Engine time (R3), the microseconds of the running millisecond, and the microseconds left to the next frame
event (R4; absent before the show is loaded, R5). -/
structure Clock where
  engineTime : Time
  micro : Nat
  frameTimer : Option Nat
  deriving DecidableEq, Repr

/-- A fade context (R6); the tag is part of a DIRECT owner. -/
structure Fade where
  start : Nat
  target : Nat
  curve : Nat
  duration : Nat
  elapsed : Nat
  lastAdvance : Time
  owner : Owner
  frozen : Bool
  deriving DecidableEq, Repr

/-- A channel record (R1). -/
structure Channel where
  level : Nat
  park : Option Nat
  fade : Option Fade
  lastOwner : LastOwner
  deriving DecidableEq, Repr

/-- The master context (R96). -/
structure MasterFade where
  start : Nat
  target : Nat
  duration : Nat
  elapsed : Nat
  lastAdvance : Time
  deriving DecidableEq, Repr

/-- A batch record of the tag accounting (R89). -/
structure Batch where
  tag : Nat
  count : Nat
  cut : Bool
  deriving DecidableEq, Repr

/-- A level snapshot (R26). -/
structure Snapshot where
  levels : Table Nat 24
  parked : Table Bool 24
  master : Nat
  progress : Table (Option Nat) 24
  deriving DecidableEq, Repr

/-- The fade engine: channel records, master, tag accounting, and the snapshot last published. -/
structure FadeEngine where
  chans : Table Channel 24
  master : Nat
  masterCtx : Option MasterFade
  tags : List Batch
  snapshot : Option Snapshot
  deriving DecidableEq, Repr

/-! ## The working show -/

/-- The role of an input (R118). -/
inductive Role where
  | unused | trigger | go | blackout
  deriving DecidableEq, Repr

/-- The active sense of an input (R118). -/
inductive Polarity where
  | activeHigh | activeLow
  deriving DecidableEq, Repr

/-- What the silence timer does (R180, R186). -/
inductive SilenceAction where
  | hold | safe
  deriving DecidableEq, Repr

/-- The configuration, parameters 01H to 17H of R180. -/
structure Params where
  framePeriod : Nat
  pwmFrequency : Nat
  chainSlots : Nat
  chainClock : Nat
  debounce : Nat
  role : Table Role 4
  polarity : Table Polarity 4
  report : Table Bool 4
  groupMask : BitVec 16
  silenceTime : Nat
  silenceAction : SilenceAction
  safeCue : Nat
  backTime : Nat
  reportEnable : BitVec 9
  deriving DecidableEq, Repr

/-- The law of an output (R134). -/
inductive Law where
  | linear | square | switch
  deriving DecidableEq, Repr

/-- An output record of the patch table (R129); no source is the source 0. -/
structure Output where
  source : Option Chan
  law : Law
  threshold : Nat
  min : Nat
  deriving DecidableEq, Repr

/-- A point of a curve (R10). -/
structure Point where
  x : Nat
  y : Nat
  deriving DecidableEq, Repr

/-- An action record of a cue (R30). -/
structure Action where
  channel : Chan
  target : Nat
  time : Nat
  delay : Nat
  curve : Nat
  deriving DecidableEq, Repr

/-- A cue record (R30). -/
structure Cue where
  number : Nat
  follow : Option Nat
  actions : List Action
  deriving DecidableEq, Repr

inductive Edge where
  | rise | fall | both
  deriving DecidableEq, Repr

inductive Direction where
  | up | down
  deriving DecidableEq, Repr

/-- The condition of an arm slot (section 5.2). -/
inductive Condition where
  | inputEdge (i : Input) (edge : Edge)
  | levelCross (c : Chan) (threshold : Nat) (direction : Direction)
  | fadeProgress (c : Chan) (value : Nat)
  | cueComplete (n : Nat)
  deriving DecidableEq, Repr

/-- The action of an arm slot (R107). -/
inductive ArmAction where
  | go
  | goTo (n : Nat)
  | back
  | pause
  | resume
  | release (time : Nat)
  | fade (mask : ChanMask) (target time curve : Nat)
  | setMaster (level time : Nat)
  deriving DecidableEq, Repr

/-- The mode of an arm slot (R102). -/
inductive Mode where
  | once | repeating
  deriving DecidableEq, Repr

/-- What an ARMED slot holds of the show image (R115). -/
structure ArmDef where
  mode : Mode
  condition : Condition
  action : ArmAction
  deriving DecidableEq, Repr

/-- The working show: what a show image stores (R189). `curves` holds the user curves 1 to 15 at places 0 to 14. -/
structure Show where
  params : Params
  patch : Table Output 40
  curves : Table (Option (List Point)) 15
  cues : List Cue
  arms : Table (Option ArmDef) 8
  deriving DecidableEq, Repr

/-! ## Editor (chapter 2) -/

/-- The edit session with its buffer (R34). -/
inductive Session where
  | idle
  | cue (n : Nat) (follow : Option Nat) (actions : List Action)
  | curve (id : Nat) (places : List (Option Point))
  deriving DecidableEq, Repr

/-- The editor: its session and the engine time of the idle timer's last start (R41). -/
structure Editor where
  session : Session
  idleFrom : Time
  deriving DecidableEq, Repr

/-! ## Player (chapter 3) -/

inductive PState where
  | stopped | running | waiting | paused
  deriving DecidableEq, Repr

/-- The state that PAUSE interrupted (R53). -/
inductive ResumeTo where
  | running | waiting
  deriving DecidableEq, Repr

/-- A countdown: what remains at the instant `lastAdvance` (R62, R67). -/
structure Countdown where
  remaining : Nat
  lastAdvance : Time
  deriving DecidableEq, Repr

/-- A scheduled start (R62). -/
structure Sched where
  channel : Chan
  target : Nat
  time : Nat
  curve : Nat
  owner : Nat
  left : Countdown
  deriving DecidableEq, Repr

/-- A live entry (R69). -/
structure Live where
  cue : Nat
  count : Nat
  cut : Bool
  deriving DecidableEq, Repr

/-- The player (R53). -/
structure Player where
  state : PState
  position : Nat
  resumeTo : Option ResumeTo
  follow : Option Countdown
  sched : List Sched
  live : List Live
  deriving DecidableEq, Repr

/-! ## Arm monitor (chapter 5) -/

/-- A CUE_DONE that has been offered and not yet taken by the arm monitor (R106). `ahead` says that it reaches the arm
monitor before the next snapshot: it comes from a firing (R110) or from a completion of the frame event (R117). -/
structure Arrival where
  cue : Nat
  ahead : Bool
  deriving DecidableEq, Repr

/-- The arm monitor beside the arming table of the show: slot memories, flags, and the CUE_DONEs that have been
offered and not yet taken (R102, R106, R110). -/
structure ArmMonitor where
  memory : Table (Option Nat) 8
  fired : Table Bool 8
  inbox : List Arrival
  deriving DecidableEq, Repr

/-! ## Input unit (chapter 6) -/

/-- A debounce wait (R118, R119). -/
structure Wait where
  start : Time
  length : Nat
  deriving DecidableEq, Repr

/-- The input unit's own state of each input: the debounced level, the wait, the latest sample of the line, and
whether the sample of the running millisecond has already differed from the one before it (R118, R119). Role, polarity
and report flag stand in the configuration. -/
structure InputUnit where
  level : Table Level 4
  wait : Table (Option Wait) 4
  sample : Table Level 4
  sampled : Table Bool 4
  deriving DecidableEq, Repr

/-! ## Outputs (chapter 7) -/

/-- The compositor beside the patch table (R133). -/
structure Compositor where
  hostBlackout : Bool
  lineBlackout : Bool
  composed : Table Nat 40
  deriving DecidableEq, Repr

/-- The PWM period in progress: its length and what is left of it, in microseconds (R137). -/
structure PwmTimer where
  period : Nat
  left : Nat
  deriving DecidableEq, Repr

/-- The PWM unit (R137). -/
structure PwmUnit where
  applied : Table Nat 8
  waiting : Table (Option Nat) 8
  timer : Option PwmTimer
  deriving DecidableEq, Repr

inductive BufRole where
  | free | ready | shifting
  deriving DecidableEq, Repr

/-- A chain buffer (R141); `values` holds S1 first. -/
structure Buffer where
  role : BufRole
  slots : Nat
  clock : Nat
  values : List Nat
  deriving DecidableEq, Repr

/-- The chain shifter (R141, R147); `age` is the microseconds since the shift in progress began. -/
structure Chain where
  bufs : Table Buffer 2
  age : Nat
  skips : Nat
  deriving DecidableEq, Repr

/-! ## Report unit (chapter 8) -/

/-- The action recorded at the start of a silence (R186). -/
inductive SilenceTaken where
  | hold | safe | nothing
  deriving DecidableEq, Repr

/-- The kinds of report with their data (R150). Input masks have bit i for IN(i+1). -/
inductive Report where
  | startup (reason : Reason) (bank : Option Bank) (generation : Nat)
  | cueStarted (cue skipped : Nat) (source : Source)
  | cueDone (cue : Nat) (how : How)
  | listEnd (position : Nat) (source : Source)
  | directDone (tag : Nat) (how : How)
  | armFired (slot : Fin 8) (action : ArmAction) (status : Status)
  | inputChange (changed levels overrun : BitVec 4)
  | editExpired (isCue : Bool) (number : Nat)
  | storeDone (ok : Bool) (bank : Bank) (generation : Nat)
  | silenceBegin (action : SilenceTaken)
  | silenceEnd (seconds : Nat)
  | overflow (lost : Nat)
  deriving DecidableEq, Repr

/-- A record of the report queue (R149). -/
structure Record where
  sequence : Nat
  time : Time
  data : Report
  sent : Bool
  deriving DecidableEq, Repr

/-- The report unit (R151 to R155). -/
structure ReportUnit where
  queue : List Record
  nextSeq : Nat
  lost : Nat
  deriving DecidableEq, Repr

/-! ## Line interface (chapter 9) -/

/-- The receive assembler between characters (R166); CHECK is left in the instant it is entered (R167). -/
inductive Rx where
  | hunt
  | receiving (held : List Byte)
  deriving DecidableEq, Repr

/-- The reply of the node: none, built and not yet begun with the microseconds since the command, or being sent
with the microseconds since its first start bit (R171). -/
inductive Reply where
  | idle
  | waiting (frame : List Byte) (age : Nat)
  | sending (frame : List Byte) (age : Nat)
  deriving DecidableEq, Repr

/-- The content of the reply cache (R173): SEQ and KIND of the command and the reply's payload. -/
structure Cached where
  seq : Byte
  kind : Byte
  payload : List Byte
  deriving DecidableEq, Repr

/-- The silence state (R185); `ms` is the milliseconds of engine time since the silence began (R187). -/
inductive Silence where
  | listening
  | silent (ms : Nat)
  deriving DecidableEq, Repr

inductive ResetMode where
  | warm | cold
  deriving DecidableEq, Repr

/-- The line interface. -/
structure LineUnit where
  rx : Rx
  rxAge : Nat
  nodeAddr : BitVec 6
  lineRate : BitVec 2
  reply : Reply
  cache : Option Cached
  filter : Option (Byte × Byte)
  crcErrors : Nat
  frameErrors : Nat
  silence : Silence
  silenceFrom : Time
  lastStart : Reason
  pendingReset : Option ResetMode
  deriving DecidableEq, Repr

/-! ## Show memory (chapter 10) -/

/-- The bytes of a bank or of the staging area: (address, byte) pairs in canonical form (Machine/Memory.lean). -/
abbrev Memory := List Host.Cell

inductive StorePhase where
  | erasing | programming | verifying
  deriving DecidableEq, Repr

/-- The store record with its phase (R192). -/
structure Store where
  phase : StorePhase
  target : Bank
  generation : Nat
  limit : Time
  deriving DecidableEq, Repr

/-- The last store result (R192). -/
structure StoreResult where
  ok : Bool
  bank : Bank
  generation : Nat
  deriving DecidableEq, Repr

/-- Show memory: the banks, the bank records (absent: invalid; else the generation), the store in progress, the
staging area and the last store result. -/
structure ShowMemory where
  banks : Table Memory 2
  recs : Table (Option Nat) 2
  store : Option Store
  staging : Memory
  lastResult : Option StoreResult
  deriving DecidableEq, Repr

/-! ## The state -/

/-- The state of the part. `pending` is the queue of waiting commands and `free` counts the free values taken so
far: these two are the MODEL's own, everything else is the spec's. -/
structure State where
  phase : Phase
  pins : Pins
  clock : Clock
  fade : FadeEngine
  working : Show
  editor : Editor
  player : Player
  arm : ArmMonitor
  inputs : InputUnit
  comp : Compositor
  pwm : PwmUnit
  chain : Chain
  report : ReportUnit
  line : LineUnit
  mem : ShowMemory
  pending : List Instr
  free : Nat
  deriving DecidableEq, Repr

/-! ## Values at a start -/

/-- A channel record after every reset (R28, R29). -/
def Channel.reset : Channel := ⟨0, none, none, .nobody⟩

/-- The fade engine after a start other than WARM, before the first frame event (R28). -/
def FadeEngine.reset : FadeEngine := ⟨Vector.replicate 24 Channel.reset, 1000, none, [], none⟩

/-- The defaults of R180. -/
def Params.default : Params where
  framePeriod := 5
  pwmFrequency := 1000
  chainSlots := 0
  chainClock := 250000
  debounce := 10
  role := Vector.replicate 4 .unused
  polarity := Vector.replicate 4 .activeHigh
  report := Vector.replicate 4 false
  groupMask := 0
  silenceTime := 0
  silenceAction := .hold
  safeCue := 0
  backTime := 1000
  reportEnable := 0x1FF

/-- The record of an output without a source in the default patch (R129). -/
def Output.unpatched : Output := ⟨none, .linear, 2048, 0⟩

/-- The record of local output L(c+1) in the default patch (R129). -/
def Output.follows (c : Chan) : Output := ⟨some c, .linear, 2048, 0⟩

/-- The default patch (R129): L1 to L8 follow channels 1 to 8, the chain slots have no source. -/
def defaultPatch : Table Output 40 :=
  #v[Output.follows 0, Output.follows 1, Output.follows 2, Output.follows 3,
     Output.follows 4, Output.follows 5, Output.follows 6, Output.follows 7]
    ++ Vector.replicate 32 Output.unpatched

/-- The defaults of the working show (R191). -/
def Show.default : Show where
  params := Params.default
  patch := defaultPatch
  curves := Vector.replicate 15 none
  cues := []
  arms := Vector.replicate 8 none

/-- The editor after every reset (R34). -/
def Editor.reset : Editor := ⟨.idle, 0⟩

/-- The player after every reset (R84). -/
def Player.reset : Player := ⟨.stopped, 0, none, none, [], []⟩

/-- The arm monitor of an EMPTY arming table (R116). -/
def ArmMonitor.reset : ArmMonitor := ⟨Vector.replicate 8 none, Vector.replicate 8 false, []⟩

/-- The input unit before its lines are sampled (R128). Log entry 8. -/
def InputUnit.reset : InputUnit :=
  ⟨Vector.replicate 4 .low, Vector.replicate 4 none, Vector.replicate 4 .low, Vector.replicate 4 false⟩

/-- The compositor after a start other than WARM, before the line blackout is handed over (R133). -/
def Compositor.reset : Compositor := ⟨false, false, Vector.replicate 40 0⟩

/-- The PWM unit after a start other than WARM, before the show is loaded (R140). -/
def PwmUnit.reset : PwmUnit := ⟨Vector.replicate 8 0, Vector.replicate 8 none, none⟩

/-- A FREE buffer; its other fields have no meaning (R141). -/
def Buffer.empty : Buffer := ⟨.free, 0, 0, []⟩

/-- The chain shifter after a start other than WARM (R147, R148). -/
def Chain.reset : Chain := ⟨Vector.replicate 2 Buffer.empty, 0, 0⟩

/-- The report unit after a start other than WARM, before STARTUP (R162). -/
def ReportUnit.reset : ReportUnit := ⟨[], 1, 0⟩

/-- The line interface after a start other than WARM, with the straps it reads (R164, R169, R188). -/
def LineUnit.reset (reason : Reason) (addr : BitVec 6) (rate : BitVec 2) : LineUnit where
  rx := .hunt
  rxAge := 0
  nodeAddr := addr
  lineRate := rate
  reply := .idle
  cache := none
  filter := none
  crcErrors := 0
  frameErrors := 0
  silence := .listening
  silenceFrom := 0
  lastStart := reason
  pendingReset := none

/-- Show memory after a start other than WARM, over the banks as they stand, before they are checked (R191,
R192). That both bank records are invalid until the check has set them is the model's choice (log entry 36). -/
def ShowMemory.reset (banks : Table Memory 2) : ShowMemory :=
  ⟨banks, Vector.replicate 2 none, none, [], none⟩

/-- The state at the instant a start other than WARM takes effect (R188 and the reset rules of the chapters):
pins and banks as they stand, everything else at its reset value, the show not yet loaded. -/
def State.cold (reason : Reason) (phase : Phase) (pins : Pins) (banks : Table Memory 2) (pending : List Instr)
    (free : Nat) : State where
  phase := phase
  pins := pins
  clock := ⟨0, 0, none⟩
  fade := FadeEngine.reset
  working := Show.default
  editor := Editor.reset
  player := Player.reset
  arm := ArmMonitor.reset
  inputs := InputUnit.reset
  comp := Compositor.reset
  pwm := PwmUnit.reset
  chain := Chain.reset
  report := ReportUnit.reset
  line := LineUnit.reset reason pins.strapAddr pins.strapRate
  mem := ShowMemory.reset banks
  pending := pending
  free := free

/-- The pins that the model supposes at power-on: RST# high, node address 01H, rate 00, lines LOW. Log entry 8. -/
def Pins.reset : Pins := ⟨false, 1, 0, Vector.replicate 4 .low⟩

/-- The machine right after power-on has taken effect: every field at its power-on value, the start-up read of the
banks under way, both banks blank (log entries 8 and 9). -/
def State.reset : State := State.cold .power .loading Pins.reset (Vector.replicate 2 []) [] 0

end Sys2Proof.Machine
end

