-- ==== Sys2Proof/Machine/Bytes.lean ====
section
/-! DEFINITION. Byte order (R203), the CRC-16 of frames (R205) and the CRC-32 of banks (R190). -/

namespace Sys2Proof.Machine

/-- A 1-byte field. -/
def byte1 (n : Nat) : List Byte := [BitVec.ofNat 8 n]

/-- A 2-byte field, low byte first (R203). -/
def byte2 (n : Nat) : List Byte := [BitVec.ofNat 8 n, BitVec.ofNat 8 (n / 256)]

/-- A 3-byte field, low byte first: a channel mask (R203). -/
def byte3 (n : Nat) : List Byte := [BitVec.ofNat 8 n, BitVec.ofNat 8 (n / 256), BitVec.ofNat 8 (n / 65536)]

/-- A 4-byte field, low byte first (R203). -/
def byte4 (n : Nat) : List Byte :=
  [BitVec.ofNat 8 n, BitVec.ofNat 8 (n / 256), BitVec.ofNat 8 (n / 65536), BitVec.ofNat 8 (n / 16777216)]

/-- The 2-byte field whose low byte comes first. -/
def half (lo hi : Byte) : Half := hi ++ lo

/-- The channel mask whose low byte comes first. -/
def mask3 (b0 b1 b2 : Byte) : ChanMask := b2 ++ b1 ++ b0

/-- The 4-byte field whose low byte comes first. -/
def word (b0 b1 b2 b3 : Byte) : Word := b3 ++ b2 ++ b1 ++ b0

/-- The bit 1 of a flag as a number. -/
def flag (b : Bool) : Nat := if b then 1 else 0

/-- One shift of the CRC-16 register (R205). -/
def crc16Shift (r : BitVec 16) : BitVec 16 := if r.msb then (r <<< 1) ^^^ 0x1021 else r <<< 1

/-- One byte into the CRC-16 register, most significant bit first (R205). -/
def crc16Byte (r : BitVec 16) (b : Byte) : BitVec 16 :=
  (List.range 8).foldl (fun r _ => crc16Shift r) (r ^^^ (b ++ (0 : Byte)))

/-- The CRC-16 of bytes (R165, R205). -/
def crc16 (bytes : List Byte) : BitVec 16 := bytes.foldl crc16Byte 0xFFFF

/-- One shift of the CRC-32 register (R190). -/
def crc32Shift (r : BitVec 32) : BitVec 32 := if r.msb then (r <<< 1) ^^^ 0x04C11DB7 else r <<< 1

/-- One byte into the CRC-32 register, most significant bit first (R190). -/
def crc32Byte (r : BitVec 32) (b : Byte) : BitVec 32 :=
  (List.range 8).foldl (fun r _ => crc32Shift r) (r ^^^ (b ++ (0 : BitVec 24)))

/-- The CRC-32 of bytes (R190). -/
def crc32 (bytes : List Byte) : BitVec 32 := ~~~ bytes.foldl crc32Byte 0xFFFFFFFF

end Sys2Proof.Machine
end

