-- ==== Sys2Proof/Machine/Ops.lean ====
section
/-! DEFINITION. The named operations over tables, time, and the state's blocks that every command shares. -/

namespace Sys2Proof.Machine

/-! ## Tables -/

/-- Entry `i` of a table. -/
def Table.at {α : Type} {n : Nat} (t : Table α n) (i : Fin n) : α := t[i.val]

/-- A table with entry `i` replaced. -/
def Table.put {α : Type} {n : Nat} (t : Table α n) (i : Fin n) (x : α) : Table α n := t.set i.val x

/-- The table whose entry `i` is `f i`. -/
def tabulate {α : Type} {n : Nat} (f : Fin n → α) : Table α n :=
  ⟨((List.finRange n).map f).toArray, by simp⟩

/-- The entries of a table in order. -/
def Table.entries {α : Type} {n : Nat} (t : Table α n) : List α := (List.finRange n).map t.at

/-- A page of a list: up to `size` items from index `first` onward. -/
def page {α : Type} (size first : Nat) (items : List α) : List α := (items.drop first).take size

/-! ## Time -/

/-- The whole milliseconds from an earlier engine time to a later one, modulo 2^32 (R3). -/
def since (now earlier : Time) : Nat := (now - earlier).toNat

/-- The instant of an arrival: the engine time current at it (R3). -/
def State.now (s : State) : Time := s.clock.engineTime

/-- What is left of a running countdown at an instant (R63, R67). -/
def Countdown.leftAt (c : Countdown) (now : Time) : Nat := c.remaining - since now c.lastAdvance

/-- A countdown brought up to the instant of a PAUSE and held (R63). -/
def Countdown.hold (now : Time) (c : Countdown) : Countdown := ⟨c.leftAt now, now⟩

/-- A held countdown that runs on from the instant of a thaw (R63). -/
def Countdown.thaw (now : Time) (c : Countdown) : Countdown := ⟨c.remaining, now⟩

/-! ## Replacing one block -/

def State.setFade (f : FadeEngine) (s : State) : State := { s with fade := f }
def State.setPlayer (p : Player) (s : State) : State := { s with player := p }
def State.setReport (r : ReportUnit) (s : State) : State := { s with report := r }
def State.setArm (a : ArmMonitor) (s : State) : State := { s with arm := a }
def State.setWorking (w : Show) (s : State) : State := { s with working := w }
def State.setEditor (e : Editor) (s : State) : State := { s with editor := e }
def State.setInputs (u : InputUnit) (s : State) : State := { s with inputs := u }
def State.setComp (c : Compositor) (s : State) : State := { s with comp := c }
def State.setPwm (p : PwmUnit) (s : State) : State := { s with pwm := p }
def State.setChain (c : Chain) (s : State) : State := { s with chain := c }
def State.setLine (l : LineUnit) (s : State) : State := { s with line := l }
def State.setMem (m : ShowMemory) (s : State) : State := { s with mem := m }
def State.setClock (c : Clock) (s : State) : State := { s with clock := c }
def State.setPins (p : Pins) (s : State) : State := { s with pins := p }
/-- One more free value has been taken. -/
def State.tookFree (s : State) : State := { s with free := s.free + 1 }

/-- The channel record of a channel (R1). -/
def State.chan (s : State) (c : Chan) : Channel := Table.at s.fade.chans c

/-- Replaces one channel record. -/
def State.setChan (c : Chan) (r : Channel) (s : State) : State :=
  s.setFade { s.fade with chans := Table.put s.fade.chans c r }

/-- A parked channel has its park present (R1). -/
def Channel.isParked (r : Channel) : Bool := r.park.isSome

/-! ## Offers to the report unit (R151 to R155) -/

/-- The number of a report kind (R207). -/
def Report.kindCode : Report → Nat
  | .startup _ _ _ => 1
  | .cueStarted _ _ _ => 2
  | .cueDone _ _ => 3
  | .listEnd _ _ => 4
  | .directDone _ _ => 5
  | .armFired _ _ _ => 6
  | .inputChange _ _ _ => 7
  | .editExpired _ _ => 8
  | .storeDone _ _ _ => 9
  | .silenceBegin _ => 10
  | .silenceEnd _ => 10
  | .overflow _ => 11

/-- The report enable mask admits the kind: bit k − 2 for kinds 2 to 10; STARTUP and OVERFLOW always (R153, R207). -/
def Report.admitted (mask : BitVec 9) (d : Report) : Bool :=
  if d.kindCode = 1 ∨ d.kindCode = 11 then true else mask.getLsbD (d.kindCode - 2)

/-- An INPUT_CHANGE record that has not been sent (R154). -/
def Record.mergeable (r : Record) : Bool :=
  match r.data with
  | .inputChange _ _ _ => !r.sent
  | _ => false

/-- The merge of an INPUT_CHANGE offer into an unsent record (R154). -/
def Record.merge (now : Time) (changed levels : BitVec 4) (r : Record) : Record :=
  match r.data with
  | .inputChange c _ o => { r with time := now, data := .inputChange (c ||| changed) levels (o ||| (changed &&& c)) }
  | _ => r

/-- Merges the offer into the first unsent INPUT_CHANGE record of the queue (R151 step 2). -/
def mergeInto (now : Time) (changed levels : BitVec 4) : List Record → List Record
  | [] => []
  | r :: rest => if r.mergeable then r.merge now changed levels :: rest else r :: mergeInto now changed levels rest

/-- The report sequence after this one, from 255 to 1 (R152). -/
def nextSequence (n : Nat) : Nat := if n ≥ 255 then 1 else n + 1

/-- Appends a record at the tail with the next report sequence (R151 step 4, R152). -/
def ReportUnit.append (now : Time) (d : Report) (u : ReportUnit) : ReportUnit :=
  { u with queue := u.queue ++ [⟨u.nextSeq, now, d, false⟩], nextSeq := nextSequence u.nextSeq }

/-- Steps 3 and 4 of R151: the offer is lost when the queue holds 32 records, else appended. -/
def ReportUnit.place (now : Time) (d : Report) (u : ReportUnit) : ReportUnit :=
  if u.queue.length ≥ 32 then { u with lost := min 255 (u.lost + 1) } else u.append now d

/-- The report unit takes an offer (R151). -/
def ReportUnit.offer (mask : BitVec 9) (now : Time) (d : Report) (u : ReportUnit) : ReportUnit :=
  if !d.admitted mask then u
  else match d with
    | .inputChange changed levels _ =>
      if u.queue.any Record.mergeable then { u with queue := mergeInto now changed levels u.queue } else u.place now d
    | _ => u.place now d

/-- A block offers a report at this instant. -/
def offer (d : Report) (s : State) : State :=
  s.setReport (s.report.offer s.working.params.reportEnable s.now d)

/-- The player offers CUE_DONE: to the report unit, and to the arm monitor whatever the mask (R72, R106). -/
def offerCueDone (n : Nat) (how : How) (s : State) : State :=
  let s := offer (.cueDone n how) s
  s.setArm { s.arm with inbox := s.arm.inbox ++ [⟨n, false⟩] }

/-- The CUE_DONEs behind the first `old` reach the arm monitor before the next snapshot (R110, R117). -/
def putAhead (old : Nat) (s : State) : State :=
  s.setArm { s.arm with
    inbox := s.arm.inbox.take old ++ (s.arm.inbox.drop old).map fun a => { a with ahead := true } }

def howOf (cut : Bool) : How := if cut then .cut else .completed

/-! ## The accounting of cues (R60, R66, R71, R72) and of tags (R90) -/

/-- What is held open during a GO operation (its cue, R60) or a FADE (its tag, R90). -/
structure Hold where
  cue : Option Nat
  tag : Option Nat

def Hold.none : Hold := ⟨Option.none, Option.none⟩

/-- One item of a live entry has ended: its count falls by 1 and, if the item was cut, its cut flag is set. -/
def Live.ended (cut : Bool) (e : Live) : Live := { e with count := e.count - 1, cut := e.cut || cut }

/-- The live entry of a cue. -/
def Player.entry (n : Nat) (p : Player) : Option Live := p.live.find? (·.cue == n)

/-- The player with the entry of cue `n` removed, and WAITING if that leaves it with nothing while RUNNING (R72). -/
def Player.dropEntry (n : Nat) (p : Player) : Player :=
  let live := p.live.filter (·.cue != n)
  { p with
    live := live
    state := if p.state = .running ∧ live = [] ∧ p.follow = Option.none then .waiting else p.state }

/-- The player with the entry of cue `n` replaced in its place. -/
def Player.putEntry (n : Nat) (e : Live) (p : Player) : Player :=
  { p with live := p.live.map fun x => if x.cue == n then e else x }

/-- One item owned by cue `n` has ended (R66, R71). A cue without an entry is not touched. An entry whose count
reaches 0 is removed and CUE_DONE offered (R72), unless its GO operation holds it (R60). -/
def accountCue (hold : Hold) (n : Nat) (cut : Bool) (s : State) : State :=
  match s.player.entry n with
  | Option.none => s
  | some e =>
    let e' := e.ended cut
    if e'.count = 0 ∧ hold.cue ≠ some n then
      offerCueDone n (howOf e'.cut) (s.setPlayer (s.player.dropEntry n))
    else s.setPlayer (s.player.putEntry n e')

/-- The batch record of a tag (R89). -/
def FadeEngine.batch (t : Nat) (f : FadeEngine) : Option Batch := f.tags.find? (·.tag == t)

/-- The tag accounting without the record of tag `t`. -/
def FadeEngine.dropBatch (t : Nat) (f : FadeEngine) : FadeEngine := { f with tags := f.tags.filter (·.tag != t) }

/-- The tag accounting with the record of tag `t` replaced in its place. -/
def FadeEngine.putBatch (t : Nat) (b : Batch) (f : FadeEngine) : FadeEngine :=
  { f with tags := f.tags.map fun x => if x.tag == t then b else x }

/-- A context of tag `t` has ended (R90). -/
def accountTag (hold : Hold) (t : Nat) (cut : Bool) (s : State) : State :=
  match s.fade.batch t with
  | Option.none => s
  | some b =>
    let b' : Batch := { b with count := b.count - 1, cut := b.cut || cut }
    if b'.count = 0 ∧ hold.tag ≠ some t then
      offer (.directDone t (howOf b'.cut)) (s.setFade (s.fade.dropBatch t))
    else s.setFade (s.fade.putBatch t b')

/-- An end notice reaches the accountant of the owner of the removed context (R23). -/
def endNotice (hold : Hold) (o : Owner) (cut : Bool) (s : State) : State :=
  match o with
  | .cue n => accountCue hold n cut s
  | .direct t => if t = 0 then s else accountTag hold t cut s
  | .release => s

/-- The number of fade contexts owned by cue `n` (R25). -/
def FadeEngine.ownedBy (n : Nat) (f : FadeEngine) : Nat :=
  (Table.entries f.chans).countP fun r => match r.fade with
    | some x => x.owner == .cue n
    | Option.none => false

/-- The number of fade contexts that carry tag `t`, owner DIRECT (R89). -/
def FadeEngine.tagged (t : Nat) (f : FadeEngine) : Nat :=
  (Table.entries f.chans).countP fun r => match r.fade with
    | some x => x.owner == .direct t
    | Option.none => false

/-- The number of scheduled starts of cue `n` (R81). -/
def Player.schedOf (n : Nat) (p : Player) : Nat := p.sched.countP (·.owner == n)

/-- The number of items cue `n` owns (R59 step 3). -/
def State.owned (n : Nat) (s : State) : Nat := s.fade.ownedBy n + s.player.schedOf n

/-- Any fade context exists (R25). -/
def FadeEngine.anyFade (f : FadeEngine) : Bool := (Table.entries f.chans).any (·.fade.isSome)

/-- A channel clearing request (R66): the scheduled starts on the channels of the set leave the list, and each is
accounted to its owner as cut, in list order. -/
def clearSched (hold : Hold) (set : Chan → Bool) (s : State) : State :=
  let gone := s.player.sched.filter fun e => set e.channel
  let kept := s.player.sched.filter fun e => !set e.channel
  gone.foldl (fun s e => accountCue hold e.owner true s) (s.setPlayer { s.player with sched := kept })

/-- The channels in ascending order. -/
def channels : List Chan := List.finRange 24

/-- Membership of a channel in a mask (R85). -/
def inMask (m : ChanMask) (c : Chan) : Bool := m.getLsbD c.val

/-- The result of a message that only answers: the state as it stands. -/
def refuse (st : Status) (s : State) : State × Resp := (s, ⟨st, []⟩)

end Sys2Proof.Machine
end

