-- ==== Sys2Proof/Machine/Curves.lean ====
section
/-! DEFINITION. The curve table, the two pools, and the arithmetic of progress and level (sections 1.4, 1.5, R32). -/

namespace Sys2Proof.Machine

/-- The point list of the built-in curve 0 (R10). -/
def linearCurve : List Point := [⟨0, 0⟩, ⟨1000, 1000⟩]

/-- The point list of a curve, if it is defined; curve 0 always is (R10). -/
def Show.curve (w : Show) (id : Nat) : Option (List Point) :=
  if id = 0 then some linearCurve
  else if h : id - 1 < 15 then Table.at w.curves ⟨id - 1, h⟩ else none

/-- The show with user curve `id` made to hold `pts` (or undefined); ids other than 1 to 15 name no user curve. -/
def Show.setCurve (id : Nat) (pts : Option (List Point)) (w : Show) : Show :=
  if h : 1 ≤ id ∧ id - 1 < 15 then { w with curves := Table.put w.curves ⟨id - 1, h.2⟩ pts } else w

/-- The points of the defined user curves together (R12). -/
def Show.pointsUsed (w : Show) : Nat :=
  ((Table.entries w.curves).map fun c => match c with
    | some pts => pts.length
    | none => 0).sum

/-- The free points of the point pool (R12). -/
def Show.freePoints (w : Show) : Nat := 240 - w.pointsUsed

/-- The actions of the cues of the list together (R32). -/
def Show.actionsUsed (w : Show) : Nat := (w.cues.map (·.actions.length)).sum

/-- The free actions of the action pool (R32). -/
def Show.freeActions (w : Show) : Nat := 384 - w.actionsUsed

/-- x rises strictly from each point to the next (R11 rule 2). -/
def risingX : List Point → Bool
  | p :: q :: rest => decide (p.x < q.x) && risingX (q :: rest)
  | _ => true

/-- The shape rules of R11. -/
def shapeOk (pts : List Point) : Bool :=
  decide (2 ≤ pts.length ∧ pts.length ≤ 32) && risingX pts
    && (pts.head? == some ⟨0, 0⟩) && (pts.getLast? == some ⟨1000, 1000⟩)
    && pts.all fun p => decide (p.y ≤ 1000)

/-- The time fraction x of a fade, in permille (R15). -/
def timeFraction (elapsed duration : Nat) : Nat :=
  if elapsed ≥ duration then 1000 else elapsed * 1000 / duration

/-- The progress on the segment from `p` to `q` at x (R16), truncated toward zero before it is added. -/
def onSegment (p q : Point) (x : Nat) : Int :=
  (p.y : Int) + (((q.y : Int) - p.y) * ((x : Int) - p.x)).tdiv ((q.x : Int) - p.x)

/-- The progress p at x along a point list (R16): the segment with x_i ≤ x < x_(i+1), else the last one. -/
def progressOn : List Point → Nat → Int
  | [], _ => 0
  | [p], _ => p.y
  | p :: q :: rest, x => if x < q.x ∨ rest = [] then onSegment p q x else progressOn (q :: rest) x

/-- start + (target − start) × p / 1000, the quotient truncated toward zero (R17, R98). -/
def levelAt (start target : Nat) (p : Int) : Nat :=
  ((start : Int) + (((target : Int) - start) * p).tdiv 1000).toNat

/-- The time fraction of a context from its elapsed (R15). -/
def Fade.fraction (f : Fade) : Nat := timeFraction f.elapsed f.duration

/-- The level of a context from its elapsed, along its curve in the working show (R15 to R17). A context always
names a defined curve (R13); log entry 24. -/
def Fade.levelNow (w : Show) (f : Fade) : Nat :=
  levelAt f.start f.target (progressOn ((w.curve f.curve).getD linearCurve) f.fraction)

/-- Some fade context names the curve (R25). -/
def FadeEngine.usesCurve (id : Nat) (f : FadeEngine) : Bool :=
  (Table.entries f.chans).any fun r => match r.fade with
    | some x => x.curve == id
    | none => false

/-- Some scheduled start names the curve (R81). -/
def Player.usesCurve (id : Nat) (p : Player) : Bool := p.sched.any (·.curve == id)

/-- Some action of some cue of the list names the curve (R47). -/
def Show.cuesUseCurve (id : Nat) (w : Show) : Bool := w.cues.any fun q => q.actions.any (·.curve == id)

end Sys2Proof.Machine
end

