-- ==== Sys2Proof/Machine/Operands.lean ====
section
/-! DEFINITION. The operand forms: which field values each owning block takes (R30, R36, R102, R107, R131, R180),
and the records of R209 read into the values of the model. -/

namespace Sys2Proof.Machine

/-- A channel number 1 to 24. -/
def chanOf (n : Nat) : Option Chan := if h : 1 ≤ n ∧ n - 1 < 24 then some ⟨n - 1, h.2⟩ else none

/-- An input number 1 to 4. -/
def inputOf (n : Nat) : Option Input := if h : 1 ≤ n ∧ n - 1 < 4 then some ⟨n - 1, h.2⟩ else none

/-- An arm slot number 0 to 7. -/
def slotOf (n : Nat) : Option (Fin 8) := if h : n < 8 then some ⟨n, h⟩ else none

/-- The number of a channel. -/
def chanNumber (c : Chan) : Nat := c.val + 1

/-- Every entry of a list of options, or none. -/
def allSome {α : Type} : List (Option α) → Option (List α)
  | [] => some []
  | none :: _ => none
  | some x :: rest => (allSome rest).map (x :: ·)

/-! ## Cue actions -/

/-- The follow field: absent marker, or 0 to 600,000 (R37, R203). -/
def followOf (v : Word) : Option (Option Nat) :=
  if v = 0xFFFFFFFF then some none else if v.toNat ≤ 600000 then some (some v.toNat) else none

/-- A set record whose fields lie in the ranges of R30. -/
def actionRecordOf (r : RawAction) : Option Action :=
  match chanOf r.channel.toNat with
  | none => none
  | some c =>
    if r.target.toNat ≤ 4095 ∧ r.time.toNat ≤ 600000 ∧ r.delay.toNat ≤ 60000 ∧ r.curve.toNat ≤ 15 then
      some ⟨c, r.target.toNat, r.time.toNat, r.delay.toNat, r.curve.toNat⟩
    else none

/-- What a record of CUE_ACTIONS asks for (R36). -/
inductive BufferEdit where
  | set (a : Action)
  | remove (c : Chan)
  deriving DecidableEq, Repr

/-- The channel a record names. -/
def BufferEdit.channel : BufferEdit → Chan
  | .set a => a.channel
  | .remove c => c

/-- A record of CUE_ACTIONS: a removal record has the target FFFFH and time, delay and curve 0 (R36). -/
def editOf (r : RawAction) : Option BufferEdit :=
  if r.target = 0xFFFF then
    match chanOf r.channel.toNat with
    | none => none
    | some c => if r.time = 0 ∧ r.delay = 0 ∧ r.curve = 0 then some (.remove c) else none
  else (actionRecordOf r).map .set

/-- No two records name the same channel (R36). -/
def distinctChannels : List BufferEdit → Bool
  | [] => true
  | e :: rest => rest.all (fun x => x.channel != e.channel) && distinctChannels rest

/-- A point of CURVE_POINTS with coordinates 0 to 1000 (R39). -/
def pointOf (r : RawPoint) : Option Point :=
  if r.x.toNat ≤ 1000 ∧ r.y.toNat ≤ 1000 then some ⟨r.x.toNat, r.y.toNat⟩ else none

/-! ## Output records -/

/-- The law code (R207). -/
def lawOf (n : Nat) : Option Law :=
  match n with
  | 0 => some .linear
  | 1 => some .square
  | 2 => some .switch
  | _ => none

/-- The source field: 0 for none, or a channel (R129). -/
def sourceOf (n : Nat) : Option (Option Chan) := if n = 0 then some none else (chanOf n).map some

/-- An output record that PATCH takes (R131). -/
def outputOf (r : RawOutput) : Option Output :=
  match sourceOf r.source.toNat, lawOf r.law.toNat with
  | some source, some law =>
    if r.threshold.toNat ≤ 4095 ∧ r.min.toNat ≤ 4095 then some ⟨source, law, r.threshold.toNat, r.min.toNat⟩
    else none
  | _, _ => none

/-! ## Conditions and actions of arm slots -/

def edgeOf (n : Nat) : Option Edge :=
  match n with
  | 0 => some .rise
  | 1 => some .fall
  | 2 => some .both
  | _ => none

def directionOf (n : Nat) : Option Direction :=
  match n with
  | 0 => some .up
  | 1 => some .down
  | _ => none

def modeOf (n : Nat) : Option Mode :=
  match n with
  | 0 => some .once
  | 1 => some .repeating
  | _ => none

/-- The unused bytes of a condition or an action, by its kind, are 0 (R203, R209). A kind that names nothing has no
layout, and its owning block refuses it. -/
def conditionReserved : List Byte → Bool
  | [k, _, _, c, d] =>
    match k.toNat with
    | 1 => c == 0 && d == 0
    | 2 => true
    | 3 => d == 0
    | 4 => c == 0 && d == 0
    | _ => true
  | _ => true

/-- The condition of 5 bytes, when its kind and parameters lie in the ranges of section 5.2 (R111, R209). -/
def conditionOf : List Byte → Option Condition
  | [k, a, b, c, d] =>
    match k.toNat with
    | 1 => match inputOf a.toNat, edgeOf b.toNat with
      | some i, some e => some (.inputEdge i e)
      | _, _ => none
    | 2 => match chanOf a.toNat, directionOf d.toNat with
      | some ch, some dir =>
        let threshold := (half b c).toNat
        if 1 ≤ threshold ∧ threshold ≤ 4095 then some (.levelCross ch threshold dir) else none
      | _, _ => none
    | 3 => match chanOf a.toNat with
      | some ch =>
        let value := (half b c).toNat
        if 1 ≤ value ∧ value ≤ 1000 then some (.fadeProgress ch value) else none
      | none => none
    | 4 =>
      let cue := (half a b).toNat
      if 1 ≤ cue ∧ cue ≤ 9999 then some (.cueComplete cue) else none
    | _ => none
  | _ => none

/-- The unused bytes of an action are 0 (R203, R209). -/
def actionReserved : List Byte → Bool
  | k :: rest =>
    match k.toNat with
    | 1 => rest.all (· == 0)
    | 2 => (rest.drop 2).all (· == 0)
    | 3 => rest.all (· == 0)
    | 4 => rest.all (· == 0)
    | 5 => rest.all (· == 0)
    | 6 => (rest.drop 2).all (· == 0)
    | 7 => true
    | 8 => (rest.drop 4).all (· == 0)
    | _ => true
  | [] => true

/-- The action of 11 bytes, when its kind and parameters lie in the ranges of R107 (R111, R209). -/
def actionOf : List Byte → Option ArmAction
  | [k, b0, b1, b2, b3, b4, b5, b6, b7, b8, b9] =>
    match k.toNat with
    | 1 => some .go
    | 2 =>
      let cue := (half b0 b1).toNat
      if 1 ≤ cue ∧ cue ≤ 9999 then some (.goTo cue) else none
    | 3 => some .back
    | 4 => some .pause
    | 5 => some .resume
    | 6 =>
      let time := (half b0 b1).toNat
      if time ≤ 60000 then some (.release time) else none
    | 7 =>
      let mask := mask3 b0 b1 b2
      let target := (half b3 b4).toNat
      let time := (word b5 b6 b7 b8).toNat
      let curve := b9.toNat
      if mask ≠ 0 ∧ target ≤ 4095 ∧ time ≤ 600000 ∧ curve ≤ 15 then some (.fade mask target time curve) else none
    | 8 =>
      let level := (half b0 b1).toNat
      let time := (half b2 b3).toNat
      if level ≤ 1000 ∧ time ≤ 60000 then some (.setMaster level time) else none
    | _ => none
  | _ => none

/-- The contents of an ARMED slot that ARM takes (R111), unused bytes apart. -/
def armDefOf (mode : Nat) (condition action : List Byte) : Option ArmDef :=
  match modeOf mode, conditionOf condition, actionOf action with
  | some m, some c, some a => some ⟨m, c, a⟩
  | _, _, _ => none

/-! ## Configuration parameters (R180) -/

/-- The values each parameter allows; an id that names no parameter allows none (R179, R180). -/
def paramOk (id v : Nat) : Bool :=
  match id with
  | 0x01 => decide (2 ≤ v ∧ v ≤ 20)
  | 0x02 => decide (v = 500 ∨ v = 1000 ∨ v = 2000 ∨ v = 4000)
  | 0x03 => decide (v ≤ 32)
  | 0x04 => decide (v = 62500 ∨ v = 125000 ∨ v = 250000 ∨ v = 500000)
  | 0x05 => decide (1 ≤ v ∧ v ≤ 100)
  | 0x06 => decide (v ≤ 3)
  | 0x07 => decide (v ≤ 3)
  | 0x08 => decide (v ≤ 3)
  | 0x09 => decide (v ≤ 3)
  | 0x0A => decide (v ≤ 1)
  | 0x0B => decide (v ≤ 1)
  | 0x0C => decide (v ≤ 1)
  | 0x0D => decide (v ≤ 1)
  | 0x0E => decide (v ≤ 1)
  | 0x0F => decide (v ≤ 1)
  | 0x10 => decide (v ≤ 1)
  | 0x11 => decide (v ≤ 1)
  | 0x12 => decide (v ≤ 0xFFFF)
  | 0x13 => decide (v ≤ 600)
  | 0x14 => decide (v ≤ 1)
  | 0x15 => decide (v ≤ 9999)
  | 0x16 => decide (v ≤ 60000)
  | 0x17 => decide (v ≤ 0x1FF)
  | _ => false

/-- The role of a code (R180). -/
def roleOf (n : Nat) : Role :=
  match n with
  | 1 => .trigger
  | 2 => .go
  | 3 => .blackout
  | _ => .unused

/-- The code of a role (R180). -/
def roleCode : Role → Nat
  | .unused => 0
  | .trigger => 1
  | .go => 2
  | .blackout => 3

def polarityOf (n : Nat) : Polarity := if n = 1 then .activeLow else .activeHigh

def polarityCode : Polarity → Nat
  | .activeHigh => 0
  | .activeLow => 1

/-- A parameter set to an allowed value (R180). -/
def Params.set (id v : Nat) (p : Params) : Params :=
  match id with
  | 0x01 => { p with framePeriod := v }
  | 0x02 => { p with pwmFrequency := v }
  | 0x03 => { p with chainSlots := v }
  | 0x04 => { p with chainClock := v }
  | 0x05 => { p with debounce := v }
  | 0x06 => { p with role := Table.put p.role 0 (roleOf v) }
  | 0x07 => { p with role := Table.put p.role 1 (roleOf v) }
  | 0x08 => { p with role := Table.put p.role 2 (roleOf v) }
  | 0x09 => { p with role := Table.put p.role 3 (roleOf v) }
  | 0x0A => { p with polarity := Table.put p.polarity 0 (polarityOf v) }
  | 0x0B => { p with polarity := Table.put p.polarity 1 (polarityOf v) }
  | 0x0C => { p with polarity := Table.put p.polarity 2 (polarityOf v) }
  | 0x0D => { p with polarity := Table.put p.polarity 3 (polarityOf v) }
  | 0x0E => { p with report := Table.put p.report 0 (v == 1) }
  | 0x0F => { p with report := Table.put p.report 1 (v == 1) }
  | 0x10 => { p with report := Table.put p.report 2 (v == 1) }
  | 0x11 => { p with report := Table.put p.report 3 (v == 1) }
  | 0x12 => { p with groupMask := BitVec.ofNat 16 v }
  | 0x13 => { p with silenceTime := v }
  | 0x14 => { p with silenceAction := if v = 1 then .safe else .hold }
  | 0x15 => { p with safeCue := v }
  | 0x16 => { p with backTime := v }
  | 0x17 => { p with reportEnable := BitVec.ofNat 9 v }
  | _ => p

/-- The value of a parameter in the encoding of R180. -/
def Params.value (id : Nat) (p : Params) : Nat :=
  match id with
  | 0x01 => p.framePeriod
  | 0x02 => p.pwmFrequency
  | 0x03 => p.chainSlots
  | 0x04 => p.chainClock
  | 0x05 => p.debounce
  | 0x06 => roleCode (Table.at p.role 0)
  | 0x07 => roleCode (Table.at p.role 1)
  | 0x08 => roleCode (Table.at p.role 2)
  | 0x09 => roleCode (Table.at p.role 3)
  | 0x0A => polarityCode (Table.at p.polarity 0)
  | 0x0B => polarityCode (Table.at p.polarity 1)
  | 0x0C => polarityCode (Table.at p.polarity 2)
  | 0x0D => polarityCode (Table.at p.polarity 3)
  | 0x0E => flag (Table.at p.report 0)
  | 0x0F => flag (Table.at p.report 1)
  | 0x10 => flag (Table.at p.report 2)
  | 0x11 => flag (Table.at p.report 3)
  | 0x12 => p.groupMask.toNat
  | 0x13 => p.silenceTime
  | 0x14 => match p.silenceAction with
    | .hold => 0
    | .safe => 1
  | 0x15 => p.safeCue
  | 0x16 => p.backTime
  | 0x17 => p.reportEnable.toNat
  | _ => 0

end Sys2Proof.Machine
end

