-- ==== Sys2Proof/Machine/Flags.lean ====
section
/-! DEFINITION. The codes, flag bytes, masks and records that replies and reports carry (R176, R203, R207 to R210). -/

namespace Sys2Proof.Machine

/-! ## Codes (R176, R207) -/

def Status.code : Status → Nat
  | .done => 0x00
  | .accepted => 0x01
  | .badKind => 0x40
  | .badLength => 0x41
  | .badValue => 0x42
  | .wrongState => 0x43
  | .busy => 0x44
  | .inUse => 0x45
  | .noSpace => 0x46
  | .notFound => 0x47
  | .duplicate => 0x48
  | .parked => 0x49
  | .endOfList => 0x4A
  | .incomplete => 0x4B
  | .badShape => 0x4C

def PState.code : PState → Nat
  | .stopped => 0
  | .running => 1
  | .waiting => 2
  | .paused => 3

def resumeCode : Option ResumeTo → Nat
  | none => 0
  | some .running => 1
  | some .waiting => 2

/-- The session kind (R207). -/
def Session.kindCode : Session → Nat
  | .idle => 0
  | .cue _ _ _ => 1
  | .curve _ _ => 2

/-- The session number: the cue number or the curve id, 0 when EDIT_IDLE (R203). -/
def Session.number : Session → Nat
  | .idle => 0
  | .cue n _ _ => n
  | .curve id _ => id

def storeCode : Option Store → Nat
  | none => 0
  | some x => match x.phase with
    | .erasing => 1
    | .programming => 2
    | .verifying => 3

def Reason.code : Reason → Nat
  | .power => 0
  | .pin => 1
  | .cold => 2
  | .warm => 3

/-- The source byte of CUE_STARTED (R207); a HOST source is never reported (R78). R207 gives codes for CUE_STARTED
alone: that LIST_END writes FOLLOW and INPUT with the same codes, 3 and 4, is the model's choice (log entry 33). -/
def Source.code : Source → Nat
  | .host => 0
  | .group => 1
  | .arm => 2
  | .follow => 3
  | .input => 4
  | .silence => 5

def How.code : How → Nat
  | .completed => 0
  | .cut => 1

def Law.code : Law → Nat
  | .linear => 0
  | .square => 1
  | .switch => 2

def Mode.code : Mode → Nat
  | .once => 0
  | .repeating => 1

def Edge.code : Edge → Nat
  | .rise => 0
  | .fall => 1
  | .both => 2

def Direction.code : Direction → Nat
  | .up => 0
  | .down => 1

def ArmAction.code : ArmAction → Nat
  | .go => 1
  | .goTo _ => 2
  | .back => 3
  | .pause => 4
  | .resume => 5
  | .release _ => 6
  | .fade _ _ _ _ => 7
  | .setMaster _ _ => 8

def SilenceTaken.code : SilenceTaken → Nat
  | .hold => 0
  | .safe => 1
  | .nothing => 2

/-- A bank, or FFH for none (R203, R207). -/
def bankCode : Option Bank → Nat
  | some b => b.val
  | none => 0xFF

/-- The owner code of a fade (R207). -/
def Owner.code : Owner → Nat
  | .cue n => n
  | .direct tag => 0xF000 + tag
  | .release => 0xFFFD

/-- The owner code of a last_owner field (R207); DIRECT keeps its tag (log entry 14). -/
def LastOwner.code : LastOwner → Nat
  | .nobody => 0
  | .owned o => o.code
  | .park => 0xFFFE

/-- A flag byte: bit 0 for the first flag named, bit 1 for the second (R207). -/
def flags2 (first second : Bool) : Nat := flag first + 2 * flag second

/-- The number whose bit i is `f i`: masks of channels, inputs and curves (R203, R207). That the armed and the fired mask of
READ_ARM hold slot i in bit i too is the model's choice (R114, log entry 34). -/
def maskOf {n : Nat} (f : Fin n → Bool) : Nat :=
  ((List.finRange n).map fun i => flag (f i) * 2 ^ i.val).sum

/-- An optional 2-byte field with its absent marker (R203). -/
def opt2 : Option Nat → List Byte
  | some n => byte2 n
  | none => byte2 0xFFFF

/-- An optional 4-byte field with its absent marker (R203). -/
def opt4 : Option Nat → List Byte
  | some n => byte4 n
  | none => byte4 0xFFFFFFFF

/-! ## Records (R208, R209) -/

/-- An action record of 10 bytes. -/
def Action.bytes (a : Action) : List Byte :=
  byte1 (chanNumber a.channel) ++ byte2 a.target ++ byte4 a.time ++ byte2 a.delay ++ byte1 a.curve

/-- A point record of 4 bytes. -/
def Point.bytes (p : Point) : List Byte := byte2 p.x ++ byte2 p.y

/-- The source number of an output record (R129). -/
def sourceNumber : Option Chan → Nat
  | none => 0
  | some c => chanNumber c

/-- An output record of 6 bytes. -/
def Output.bytes (o : Output) : List Byte :=
  byte1 (sourceNumber o.source) ++ byte1 o.law.code ++ byte2 o.threshold ++ byte2 o.min

/-- A condition of 5 bytes. -/
def Condition.bytes : Condition → List Byte
  | .inputEdge i e => byte1 1 ++ byte1 (i.val + 1) ++ byte1 e.code ++ byte2 0
  | .levelCross c t d => byte1 2 ++ byte1 (chanNumber c) ++ byte2 t ++ byte1 d.code
  | .fadeProgress c v => byte1 3 ++ byte1 (chanNumber c) ++ byte2 v ++ byte1 0
  | .cueComplete n => byte1 4 ++ byte2 n ++ byte2 0

/-- An action of 11 bytes. -/
def ArmAction.bytes (a : ArmAction) : List Byte :=
  byte1 a.code ++ match a with
    | .goTo n => byte2 n ++ List.replicate 8 0
    | .release t => byte2 t ++ List.replicate 8 0
    | .fade m target time curve => byte3 m.toNat ++ byte2 target ++ byte4 time ++ byte1 curve
    | .setMaster l t => byte2 l ++ byte2 t ++ List.replicate 6 0
    | .go => List.replicate 10 0
    | .back => List.replicate 10 0
    | .pause => List.replicate 10 0
    | .resume => List.replicate 10 0

/-- Mode, condition and action of a slot; 0 in every byte when EMPTY (R203). -/
def armBytes : Option ArmDef → List Byte
  | some d => byte1 d.mode.code ++ d.condition.bytes ++ d.action.bytes
  | none => List.replicate 17 0

/-! ## Report records (R210) -/

/-- The six data bytes of a report, reserved bytes 0 (R210). -/
def Report.dataBytes (d : Report) : List Byte :=
  let used := match d with
    | .startup r b g => byte1 r.code ++ byte1 (bankCode b) ++ byte4 g
    | .cueStarted n k src => byte2 n ++ byte1 k ++ byte1 src.code
    | .cueDone n how => byte2 n ++ byte1 how.code
    | .listEnd p src => byte2 p ++ byte1 src.code
    | .directDone t how => byte1 t ++ byte1 how.code
    | .armFired k a st => byte1 k.val ++ byte1 a.code ++ byte1 st.code
    | .inputChange c l o => byte1 c.toNat ++ byte1 l.toNat ++ byte1 o.toNat
    | .editExpired isCue n => byte1 (if isCue then 1 else 2) ++ byte2 n
    | .storeDone ok b g => byte1 (if ok then 0 else 1) ++ byte1 b.val ++ byte4 g
    | .silenceBegin a => byte1 0 ++ byte1 a.code
    | .silenceEnd secs => byte1 1 ++ byte2 secs
    | .overflow n => byte1 n
  used ++ List.replicate (6 - used.length) 0

/-- The 12 bytes of a report record (R210). -/
def Record.bytes (r : Record) : List Byte :=
  byte1 r.sequence ++ byte1 r.data.kindCode ++ byte4 r.time.toNat ++ r.data.dataBytes

end Sys2Proof.Machine
end

