-- ==== Sys2Proof/Machine/Fade.lean ====
section
/-! DEFINITION. The fade engine: start requests, takeovers, freeze and thaw, the advances of a frame event, the
level snapshot (sections 1.3, 1.6, 1.7 and R96 to R98). -/

namespace Sys2Proof.Machine

/-- The result of a start request (R18). -/
inductive StartResult where
  | parked | set | started
  deriving DecidableEq, Repr

/-- A start request (R18). -/
structure StartReq where
  channel : Chan
  target : Nat
  duration : Nat
  curve : Nat
  owner : Owner

/-- A context leaves its channel other than by completing, and its end notice is handed to its accountant (R19
step 1, R22, R23). -/
def removeContext (hold : Hold) (c : Chan) (s : State) : State :=
  match (s.chan c).fade with
  | none => s
  | some f => endNotice hold f.owner true (s.setChan c { s.chan c with fade := none })

/-- The fade engine takes a start request at this instant (R18, R19, R20). -/
def startRequest (hold : Hold) (q : StartReq) (s : State) : State × StartResult :=
  if (s.chan q.channel).isParked then (s, .parked)
  else
    let s := removeContext hold q.channel s
    let r := s.chan q.channel
    if q.duration = 0 then
      (s.setChan q.channel { r with level := q.target, lastOwner := .owned q.owner }, .set)
    else
      (s.setChan q.channel { r with
        fade := some ⟨r.level, q.target, q.curve, q.duration, 0, s.now, q.owner, false⟩
        lastOwner := .owned q.owner }, .started)

/-- A context with elapsed brought up to an instant (R7, R8). -/
def Fade.advanced (now : Time) (f : Fade) : Fade :=
  { f with elapsed := f.elapsed + since now f.lastAdvance, lastAdvance := now }

/-- The advance of one channel at a frame event (R7), with completion (R21). -/
def advanceChannel (c : Chan) (s : State) : State :=
  match (s.chan c).fade with
  | none => s
  | some f =>
    if f.frozen then s
    else
      let f := f.advanced s.now
      if f.elapsed ≥ f.duration then
        endNotice .none f.owner false (s.setChan c { s.chan c with level := f.target, fade := none })
      else s.setChan c { s.chan c with level := f.levelNow s.working, fade := some f }

/-- The advances of channels 1 to 24 in ascending order (R7, R24 step 1). -/
def advanceChannels (s : State) : State := channels.foldl (fun s c => advanceChannel c s) s

/-- The context of a channel completes at a frame event at this instant (R21). -/
def Channel.completesAt (now : Time) (r : Channel) : Bool :=
  match r.fade with
  | some f => !f.frozen && decide ((f.advanced now).elapsed ≥ f.duration)
  | none => false

/-- The advance of the master context (R98). -/
def advanceMaster (s : State) : State :=
  match s.fade.masterCtx with
  | none => s
  | some m =>
    let m := { m with elapsed := m.elapsed + since s.now m.lastAdvance, lastAdvance := s.now }
    if m.elapsed ≥ m.duration then s.setFade { s.fade with master := m.target, masterCtx := none }
    else s.setFade { s.fade with
      master := levelAt m.start m.target (timeFraction m.elapsed m.duration)
      masterCtx := some m }

/-- The snapshot of the fade engine after the advances of a frame event, given the channel records before them
(R26). -/
def snapshotOf (before : Table Channel 24) (now : Time) (f : FadeEngine) : Snapshot where
  levels := tabulate fun c => (Table.at f.chans c).level
  parked := tabulate fun c => (Table.at f.chans c).isParked
  master := f.master
  progress := tabulate fun c =>
    if (Table.at before c).completesAt now then some 1000
    else (Table.at f.chans c).fade.map Fade.fraction

/-- One context at a freeze request (R8): a CUE-owned context is brought up to the instant and frozen. -/
def Fade.freeze (now : Time) (f : Fade) : Fade :=
  match f.owner with
  | .cue _ => if f.frozen then f else { f.advanced now with frozen := true }
  | _ => f

/-- One context at a thaw request (R9). -/
def Fade.thaw (now : Time) (f : Fade) : Fade :=
  if f.frozen then { f with frozen := false, lastAdvance := now } else f

/-- The fade engine with `g` applied to every fade context. -/
def FadeEngine.mapFades (g : Fade → Fade) (f : FadeEngine) : FadeEngine :=
  { f with chans := tabulate fun c => { Table.at f.chans c with fade := (Table.at f.chans c).fade.map g } }

/-- A freeze request (R8). -/
def freezeRequest (s : State) : State := s.setFade (s.fade.mapFades (Fade.freeze s.now))

/-- A thaw request (R9). -/
def thawRequest (s : State) : State := s.setFade (s.fade.mapFades (Fade.thaw s.now))

end Sys2Proof.Machine
end

