-- ==== Sys2Proof/Machine/Player.lean ====
section
/-! DEFINITION. The player: choosing a cue, the GO operation, the expiries, PAUSE, RESUME and RELEASE (chapter 3). -/

namespace Sys2Proof.Machine

/-! ## Choosing the cue -/

/-- GO, GO_TO n or BACK (R55). -/
inductive GoKind where
  | go
  | goTo (n : Nat)
  | back
  deriving DecidableEq, Repr

/-- The cue of a number in the list. -/
def Show.findCue (n : Nat) (w : Show) : Option Cue := w.cues.find? (·.number == n)

/-- The smallest number greater than `n`, in a list ordered by number (R31). -/
def Show.nextCue (n : Nat) (w : Show) : Option Cue := w.cues.find? fun q => decide (n < q.number)

/-- The largest number less than `n`, in a list ordered by number (R31). -/
def Show.prevCue (n : Nat) (w : Show) : Option Cue := w.cues.reverse.find? fun q => decide (q.number < n)

/-- A cue as BACK runs it: every time back_time, every delay 0, no follow (R58). -/
def Cue.forBack (backTime : Nat) (q : Cue) : Cue :=
  { q with follow := none, actions := q.actions.map fun a => { a with time := backTime, delay := 0 } }

/-- The choice of the cue (R56, R57, R58), or the refusal status. -/
def chooseCue (k : GoKind) (s : State) : Except Status Cue :=
  match k with
  | .go => match s.working.nextCue s.player.position with
    | some q => .ok q
    | none => .error .endOfList
  | .goTo n =>
    if n < 1 ∨ 9999 < n then .error .badValue
    else match s.working.findCue n with
      | some q => .ok q
      | none => .error .notFound
  | .back => match s.working.prevCue s.player.position with
    | some q => .ok (q.forBack s.working.params.backTime)
    | none => .error .endOfList

/-! ## The GO operation (R59) -/

/-- The player's own countdowns run on from this instant (R59 step 1, R75). -/
def Player.thaw (now : Time) (p : Player) : Player :=
  { p with
    resumeTo := none
    sched := p.sched.map fun e => { e with left := e.left.thaw now }
    follow := p.follow.map (Countdown.thaw now) }

/-- Step 1 of R59: a PAUSED player is thawed; the state is settled by step 6. -/
def goThaw (s : State) : State :=
  if s.player.state = .paused then
    let s := thawRequest s
    s.setPlayer (s.player.thaw s.now)
  else s

/-- A new entry stands after every entry whose time left is equal to or less than its own (R62). -/
def insertSched (now : Time) (e : Sched) : List Sched → List Sched
  | [] => [e]
  | x :: rest => if x.left.leftAt now ≤ e.left.leftAt now then x :: insertSched now e rest else e :: x :: rest

/-- Step 2 of R59 for one action of cue `n`; the number counts the skipped actions. -/
def goAction (n : Nat) (acc : State × Nat) (a : Action) : State × Nat :=
  let s := acc.1
  if (s.chan a.channel).isParked then (s, acc.2 + 1)
  else
    let hold : Hold := ⟨some n, none⟩
    let s := clearSched hold (fun c => c == a.channel) s
    if a.delay = 0 then ((startRequest hold ⟨a.channel, a.target, a.time, a.curve, .cue n⟩ s).1, acc.2)
    else
      (s.setPlayer { s.player with
        sched := insertSched s.now ⟨a.channel, a.target, a.time, a.curve, n, ⟨a.delay, s.now⟩⟩ s.player.sched },
        acc.2)

/-- Step 2 of R59: every action in the cue's order, which is ascending channel order (R30). -/
def goActions (q : Cue) (s : State) : State × Nat := q.actions.foldl (goAction q.number) (s, 0)

/-- Step 3 of R59: the live entry of cue `n`, which owns `owned` items. -/
def Player.settleEntry (n owned : Nat) (p : Player) : Player :=
  let others := p.live.filter (·.cue != n)
  let cut := match p.entry n with
    | some e => e.cut
    | none => false
  { p with live := if owned = 0 then others else others ++ [⟨n, owned, cut⟩] }

/-- Steps 4 to 6 of R59: the follow timer, the position and the state. -/
def Player.settleState (now : Time) (q : Cue) (p : Player) : Player :=
  let follow := q.follow.map fun t => (⟨t, now⟩ : Countdown)
  { p with
    follow := follow
    position := q.number
    state := if p.live ≠ [] ∨ follow.isSome then .running else .waiting }

/-- Steps 3 to 7 of R59, after the actions. -/
def goSettle (q : Cue) (source : Source) (skipped : Nat) (s : State) : State :=
  let owned := s.owned q.number
  let wasCut := match s.player.entry q.number with
    | some e => e.cut
    | none => false
  let s := s.setPlayer ((s.player.settleEntry q.number owned).settleState s.now q)
  let s := if source = .host then s else offer (.cueStarted q.number skipped source) s
  if owned = 0 then offerCueDone q.number (howOf wasCut) s else s

/-- The GO operation for a chosen cue (R59, R60); answers the skipped count too. -/
def goOperation (q : Cue) (source : Source) (s : State) : State × Nat :=
  let (s, skipped) := goActions q (goThaw s)
  (goSettle q source skipped s, skipped)

/-- The outcome of a GO, GO_TO or BACK request (R55). -/
inductive GoOutcome where
  | started (cue skipped : Nat)
  | refused (st : Status)
  deriving DecidableEq, Repr

/-- The status of the outcome (R61). -/
def GoOutcome.status : GoOutcome → Status
  | .started _ _ => .done
  | .refused st => st

/-- A GO, GO_TO or BACK request at the player (R55); a refusal changes nothing (R56). -/
def goRequest (k : GoKind) (source : Source) (s : State) : State × GoOutcome :=
  match chooseCue k s with
  | .error st => (s, .refused st)
  | .ok q =>
    let (s, skipped) := goOperation q source s
    (s, .started q.number skipped)

/-- A GO from the sources FOLLOW and INPUT: a refusal becomes a LIST_END offer (R56, R80). -/
def goOrListEnd (source : Source) (s : State) : State :=
  match goRequest .go source s with
  | (s, .started _ _) => s
  | (s, .refused _) => offer (.listEnd s.player.position source) s

/-! ## Expiries -/

/-- The first scheduled start is due: the player is not PAUSED and nothing is left of its delay (R62, R64). -/
def State.schedDue (s : State) : Option Sched :=
  match s.player.sched with
  | e :: _ => if s.player.state ≠ .paused ∧ e.left.leftAt s.now = 0 then some e else none
  | [] => none

/-- A due scheduled start starts its fade or set (R64). -/
def expireSched (e : Sched) (s : State) : State :=
  let s := s.setPlayer { s.player with sched := s.player.sched.tail }
  match startRequest .none ⟨e.channel, e.target, e.time, e.curve, .cue e.owner⟩ s with
  | (s, .set) => accountCue .none e.owner false s
  | (s, _) => s

/-- The follow timer is due: present, not PAUSED, nothing left (R67, R68). -/
def State.followDue (s : State) : Bool :=
  match s.player.follow with
  | some f => decide (s.player.state ≠ .paused ∧ f.leftAt s.now = 0)
  | none => false

/-- The follow timer expires: it is consumed, and GO with source FOLLOW is performed (R68). -/
def expireFollow (s : State) : State :=
  let s := s.setPlayer { s.player with follow := none }
  match goRequest .go .follow s with
  | (s, .started _ _) => s
  | (s, .refused _) =>
    let s := offer (.listEnd s.player.position .follow) s
    s.setPlayer { s.player with state := if s.player.live = [] then .waiting else s.player.state }

/-! ## PAUSE, RESUME, RELEASE -/

/-- PAUSE taken in RUNNING or WAITING (R73). -/
def pauseNow (was : ResumeTo) (s : State) : State :=
  let s := freezeRequest s
  s.setPlayer { s.player with
    state := .paused
    resumeTo := some was
    sched := s.player.sched.map fun e => { e with left := e.left.hold s.now }
    follow := s.player.follow.map (Countdown.hold s.now) }

/-- PAUSE (R73). -/
def pauseRequest (s : State) : State × Status :=
  match s.player.state with
  | .running => (pauseNow .running s, .done)
  | .waiting => (pauseNow .waiting s, .done)
  | .paused => (s, .done)
  | .stopped => (s, .wrongState)

/-- RESUME (R75). -/
def resumeRequest (s : State) : State × Status :=
  if s.player.state = .paused then
    let s := thawRequest s
    let p := s.player.thaw s.now
    (s.setPlayer { p with state := if p.live ≠ [] ∨ p.follow.isSome then .running else .waiting }, .done)
  else (s, .wrongState)

/-- Step 4 of RELEASE for one channel; the number counts the channels given a start request (R76). -/
def releaseChannel (time : Nat) (acc : State × Nat) (c : Chan) : State × Nat :=
  let r := acc.1.chan c
  if r.isParked then acc
  else if r.level > 0 ∨ r.fade.isSome then
    ((startRequest .none ⟨c, 0, time, 0, .release⟩ acc.1).1, acc.2 + 1)
  else acc

/-- Step 3 of RELEASE: CUE_DONE(n, CUT) for every live entry, oldest first, and the entries are removed (R76). -/
def releaseEntries (s : State) : State :=
  s.player.live.foldl (fun s e =>
    offerCueDone e.cue .cut (s.setPlayer { s.player with live := s.player.live.filter (·.cue != e.cue) })) s

/-- RELEASE with a valid time: the state, the entries cut and the channels started (R76). -/
def releaseNow (time : Nat) (s : State) : State × Nat × Nat :=
  let s := s.setPlayer { s.player with sched := [], follow := none }
  let entries := s.player.live.length
  let s := releaseEntries s
  let (s, started) := channels.foldl (releaseChannel time) (s, 0)
  (s.setPlayer { s.player with position := 0, resumeTo := none, state := .stopped }, entries, started)

end Sys2Proof.Machine
end

