-- ==== Sys2Proof/Machine/Editor.lean ====
section
/-! DEFINITION. The cue store and editor: the edit session, commit, deletion and reading (chapter 2). -/

namespace Sys2Proof.Machine

/-- The idle timer is started or restarted with a full 10 s (R41). -/
def editing (session : Session) (s : State) : State := s.setEditor ⟨session, s.now⟩

/-- The session closes: EDIT_IDLE, no buffer, timer stopped (R34, R40). -/
def closeSession (s : State) : State := s.setEditor { s.editor with session := .idle }

/-! ## Opening and filling the buffer -/

/-- EDIT_CUE(n) (R35). -/
def editCueOp (cue : Half) (s : State) : State × Resp :=
  let n := cue.toNat
  if s.editor.session ≠ .idle then refuse .wrongState s
  else if n < 1 ∨ 9999 < n then refuse .badValue s
  else match s.working.findCue n with
    | some q => (editing (.cue n q.follow q.actions) s, ⟨.done, byte1 1 ++ byte1 q.actions.length⟩)
    | none => (editing (.cue n none []) s, ⟨.done, byte1 0 ++ byte1 0⟩)

/-- A set record in a buffer ordered by channel: replaced, or inserted in channel order (R36). -/
def setAction (a : Action) : List Action → List Action
  | [] => [a]
  | x :: rest =>
    if x.channel < a.channel then x :: setAction a rest
    else if x.channel = a.channel then a :: rest
    else a :: x :: rest

/-- One record applied to the buffer (R36). -/
def applyEdit (actions : List Action) : BufferEdit → List Action
  | .set a => setAction a actions
  | .remove c => actions.filter fun x => x.channel != c

/-- CUE_ACTIONS (R36). -/
def cueActionsOp (records : List RawAction) (s : State) : State × Resp :=
  match s.editor.session with
  | .cue n follow actions =>
    match allSome (records.map editOf) with
    | none => refuse .badValue s
    | some edits =>
      if !distinctChannels edits then refuse .duplicate s
      else
        let actions := edits.foldl applyEdit actions
        (editing (.cue n follow actions) s, ⟨.done, byte1 actions.length⟩)
  | .idle => refuse .wrongState s
  | .curve _ _ => refuse .wrongState s

/-- CUE_FOLLOW (R37). -/
def cueFollowOp (follow : Word) (s : State) : State × Resp :=
  match s.editor.session with
  | .cue n _ actions =>
    match followOf follow with
    | none => refuse .badValue s
    | some f => (editing (.cue n f actions) s, ⟨.done, []⟩)
  | .idle => refuse .wrongState s
  | .curve _ _ => refuse .wrongState s

/-- EDIT_CURVE(id, count) (R38). -/
def editCurveOp (id count : Byte) (s : State) : State × Resp :=
  if s.editor.session ≠ .idle then refuse .wrongState s
  else if id.toNat = 0 ∨ 15 < id.toNat ∨ count.toNat < 2 ∨ 32 < count.toNat then refuse .badValue s
  else (editing (.curve id.toNat (List.replicate count.toNat none)) s, ⟨.done, []⟩)

/-- Consecutive places written from place `first` upward (R39). -/
def writePlaces (places : List (Option Point)) (first : Nat) (points : List Point) : List (Option Point) :=
  places.take first ++ points.map some ++ places.drop (first + points.length)

/-- CURVE_POINTS(first, points) (R39). -/
def curvePointsOp (first : Byte) (points : List RawPoint) (s : State) : State × Resp :=
  match s.editor.session with
  | .curve id places =>
    match allSome (points.map pointOf) with
    | none => refuse .badValue s
    | some pts =>
      if first.toNat + pts.length > places.length then refuse .badValue s
      else
        let places := writePlaces places first.toNat pts
        (editing (.curve id places) s, ⟨.done, byte1 (places.countP Option.isSome)⟩)
  | .idle => refuse .wrongState s
  | .cue _ _ _ => refuse .wrongState s

/-- EDIT_ABORT (R40). -/
def editAbortOp (s : State) : State × Resp :=
  if s.editor.session = .idle then refuse .wrongState s else (closeSession s, ⟨.done, []⟩)

/-! ## Commit -/

/-- A cue put into the list at the place of its number, replacing the cue of that number (R31, R43). -/
def insertCue (q : Cue) : List Cue → List Cue
  | [] => [q]
  | x :: rest =>
    if x.number < q.number then x :: insertCue q rest
    else if x.number = q.number then q :: rest
    else q :: x :: rest

/-- The checks of a cue commit, in their order (R42). -/
def cueCommitCheck (n : Nat) (actions : List Action) (w : Show) : Option Status :=
  let old := match w.findCue n with
    | some q => q.actions.length
    | none => 0
  if actions = [] then some .incomplete
  else if actions.any fun a => (w.curve a.curve).isNone then some .notFound
  else if actions.length > w.freeActions + old then some .noSpace
  else if (w.findCue n).isNone ∧ w.cues.length ≥ 64 then some .noSpace
  else none

/-- The checks of a curve commit, in their order (R44); `points` is absent while a place is empty. -/
def curveCommitCheck (id : Nat) (points : Option (List Point)) (s : State) : Option Status :=
  match points with
  | none => some .incomplete
  | some pts =>
    let old := match s.working.curve id with
      | some c => c.length
      | none => 0
    if !shapeOk pts then some .badShape
    else if s.fade.usesCurve id ∨ s.player.usesCurve id then some .inUse
    else if pts.length > s.working.freePoints + old then some .noSpace
    else none

/-- The reply data of a successful commit (R208). -/
def commitData (outcome : Nat) (w : Show) : List Byte :=
  byte1 outcome ++ byte1 w.cues.length ++ byte2 w.freeActions ++ byte1 w.freePoints

/-- A commit refused by a check keeps the session and restarts the idle timer (R45). -/
def commitRefused (st : Status) (s : State) : State × Resp := (editing s.editor.session s, ⟨st, []⟩)

/-- EDIT_COMMIT (R42 to R45). -/
def editCommitOp (s : State) : State × Resp :=
  match s.editor.session with
  | .idle => refuse .wrongState s
  | .cue n follow actions =>
    match cueCommitCheck n actions s.working with
    | some st => commitRefused st s
    | none =>
      let w := { s.working with cues := insertCue ⟨n, follow, actions⟩ s.working.cues }
      let outcome := if (s.working.findCue n).isSome then 1 else 2
      (closeSession (s.setWorking w), ⟨.done, commitData outcome w⟩)
  | .curve id places =>
    match curveCommitCheck id (allSome places) s with
    | some st => commitRefused st s
    | none =>
      let w := s.working.setCurve id (allSome places)
      (closeSession (s.setWorking w), ⟨.done, commitData 0 w⟩)

/-! ## Deletion -/

/-- DELETE_CUE(n) (R46). -/
def deleteCueOp (cue : Half) (s : State) : State × Resp :=
  let n := cue.toNat
  if n < 1 ∨ 9999 < n then refuse .badValue s
  else if (s.working.findCue n).isNone then refuse .notFound s
  else
    let w := { s.working with cues := s.working.cues.filter fun q => q.number != n }
    (s.setWorking w, ⟨.done, byte1 w.cues.length ++ byte2 w.freeActions⟩)

/-- DROP_CURVE(id) (R47). -/
def dropCurveOp (id : Byte) (s : State) : State × Resp :=
  let k := id.toNat
  if k = 0 ∨ 15 < k then refuse .badValue s
  else if (s.working.curve k).isNone then refuse .notFound s
  else if s.fade.usesCurve k ∨ s.player.usesCurve k ∨ s.working.cuesUseCurve k then refuse .inUse s
  else
    let w := s.working.setCurve k none
    (s.setWorking w, ⟨.done, byte1 w.freePoints⟩)

/-! ## Reading -/

/-- READ_CUE(n, first) (R48). -/
def readCueOp (cue : Half) (first : Byte) (s : State) : State × Resp :=
  let n := cue.toNat
  if n < 1 ∨ 9999 < n then refuse .badValue s
  else match s.working.findCue n with
    | none => refuse .notFound s
    | some q =>
      if first.toNat ≥ q.actions.length then refuse .badValue s
      else
        let records := page 5 first.toNat q.actions
        (s, ⟨.done, byte2 n ++ opt4 q.follow ++ byte1 q.actions.length ++ byte1 first.toNat
          ++ byte1 records.length ++ records.flatMap Action.bytes⟩)

/-- READ_CURVE(id, first) (R49). -/
def readCurveOp (id first : Byte) (s : State) : State × Resp :=
  if 15 < id.toNat then refuse .badValue s
  else match s.working.curve id.toNat with
    | none => refuse .notFound s
    | some pts =>
      if first.toNat ≥ pts.length then refuse .badValue s
      else
        let points := page 12 first.toNat pts
        (s, ⟨.done, byte1 id.toNat ++ byte1 pts.length ++ byte1 first.toNat ++ byte1 points.length
          ++ points.flatMap Point.bytes⟩)

/-- The mask of the defined curves, bit n for curve n (R207). -/
def Show.definedCurves (w : Show) : Nat := maskOf fun k : Fin 16 => (w.curve k.val).isSome

/-- LIST_CUES(after) (R50). -/
def listCuesOp (after : Half) (s : State) : State × Resp :=
  if 9999 < after.toNat then refuse .badValue s
  else
    let w := s.working
    let numbers := page 24 0 ((w.cues.map (·.number)).filter fun n => decide (after.toNat < n))
    (s, ⟨.done, byte1 w.cues.length ++ byte2 w.freeActions ++ byte1 w.freePoints ++ byte2 w.definedCurves
      ++ byte1 s.editor.session.kindCode ++ byte2 s.editor.session.number ++ byte1 numbers.length
      ++ numbers.flatMap byte2⟩)

/-! ## The idle timer -/

/-- The idle timer has run its 10 s with a session open (R41). -/
def State.editDue (s : State) : Bool :=
  decide (s.editor.session ≠ .idle ∧ since s.now s.editor.idleFrom ≥ 10000)

/-- The idle timer expires: the buffer is discarded and EDIT_EXPIRED is offered (R41). -/
def expireEdit (s : State) : State :=
  match s.editor.session with
  | .idle => s
  | .cue n _ _ => offer (.editExpired true n) (closeSession s)
  | .curve id _ => offer (.editExpired false id) (closeSession s)

end Sys2Proof.Machine
end

