-- ==== Sys2Proof/Machine/Direct.lean ====
section
/-! DEFINITION. FADE with its tag accounting, PARK, UNPARK, SET_MASTER at the fade engine (chapter 4). -/

namespace Sys2Proof.Machine

/-- The channels of a mask in ascending order. -/
def maskChannels (m : ChanMask) : List Chan := channels.filter (inMask m)

/-- The channels of a mask whose park is absent: the set U of R87. -/
def State.unparkedOf (m : ChanMask) (s : State) : List Chan :=
  (maskChannels m).filter fun c => !(s.chan c).isParked

/-- What a FADE counted (R88). -/
structure FadeCounts where
  created : Nat
  sets : Nat
  skipped : Nat
  deriving DecidableEq, Repr

/-- The checks of R86, in their order; the first failure decides. -/
def fadeCheck (mask : ChanMask) (target time curve : Nat) (s : State) : Option Status :=
  if mask = 0 ∨ target > 4095 ∨ time > 600000 ∨ curve > 15 then some .badValue
  else if (s.working.curve curve).isNone then some .notFound
  else if s.unparkedOf mask = [] then some .parked
  else none

/-- Step 1 of R87: the batch of a nonzero tag is opened if the tag has none. -/
def openBatch (tag : Nat) (s : State) : State :=
  if tag = 0 ∨ (s.fade.batch tag).isSome then s
  else s.setFade { s.fade with tags := s.fade.tags ++ [⟨tag, 0, false⟩] }

/-- Step 3 of R87 for one channel. -/
def fadeChannel (target time curve tag : Nat) (acc : State × FadeCounts) (c : Chan) : State × FadeCounts :=
  match startRequest ⟨none, some tag⟩ ⟨c, target, time, curve, .direct tag⟩ acc.1 with
  | (s, .started) => (s, { acc.2 with created := acc.2.created + 1 })
  | (s, .set) => (s, { acc.2 with sets := acc.2.sets + 1 })
  | (s, .parked) => (s, acc.2)

/-- Step 4 of R87: the batch is settled from the number of contexts now carrying the tag (R90). -/
def settleBatch (tag : Nat) (s : State) : State :=
  if tag = 0 then s
  else match s.fade.batch tag with
    | none => s
    | some b =>
      let n := s.fade.tagged tag
      if n = 0 then offer (.directDone tag (howOf b.cut)) (s.setFade (s.fade.dropBatch tag))
      else s.setFade (s.fade.putBatch tag { b with count := n })

/-- The FADE that passes its checks (R87). -/
def fadeNow (mask : ChanMask) (target time curve tag : Nat) (s : State) : State × FadeCounts :=
  let u := s.unparkedOf mask
  let skipped := (maskChannels mask).length - u.length
  let s := openBatch tag s
  let s := clearSched .none (fun c => decide (c ∈ u)) s
  let (s, k) := u.foldl (fadeChannel target time curve tag) (s, ⟨0, 0, skipped⟩)
  (settleBatch tag s, k)

/-- FADE from any source: the state, the counts, and the refusal status if it is refused (R86, R87). -/
def fadeRequest (mask : ChanMask) (target time curve tag : Nat) (s : State) : State × FadeCounts × Status :=
  match fadeCheck mask target time curve s with
  | some st => (s, ⟨0, 0, 0⟩, st)
  | none =>
    let (s, k) := fadeNow mask target time curve tag s
    (s, k, .done)

/-- Step 2 of PARK for one channel (R93). -/
def parkChannel (level : Nat) (s : State) (c : Chan) : State :=
  let s := removeContext .none c s
  s.setChan c { s.chan c with level := level, park := some level, lastOwner := .park }

/-- PARK with a valid mask and level (R93). -/
def parkNow (mask : ChanMask) (level : Nat) (s : State) : State :=
  let s := clearSched .none (inMask mask) s
  (maskChannels mask).foldl (parkChannel level) s

/-- UNPARK with a valid mask (R95): the park goes, level and last_owner stay. -/
def unparkNow (mask : ChanMask) (s : State) : State :=
  let unpark (c : Chan) : Channel :=
    let r := Table.at s.fade.chans c
    if inMask mask c then { r with park := none } else r
  s.setFade { s.fade with chans := tabulate unpark }

/-- SET_MASTER from any source (R97). -/
def masterRequest (level time : Nat) (s : State) : State × Status :=
  if level > 1000 ∨ time > 60000 then (s, .badValue)
  else if time = 0 then (s.setFade { s.fade with master := level, masterCtx := none }, .done)
  else (s.setFade { s.fade with masterCtx := some ⟨s.fade.master, level, time, 0, s.now⟩ }, .done)

end Sys2Proof.Machine
end

