-- ==== Sys2Proof/Machine/Arm.lean ====
section
/-! DEFINITION. The arm monitor: conditions, firing, memories (chapter 5). -/

namespace Sys2Proof.Machine

/-- The arm slots in ascending order. -/
def slots : List (Fin 8) := List.finRange 8

/-- What an ARMED slot holds, or none for an EMPTY slot (R102). -/
def State.slot (s : State) (k : Fin 8) : Option ArmDef := Table.at s.working.arms k

/-- Replaces a slot of the arming table. -/
def State.putSlot (k : Fin 8) (d : Option ArmDef) (s : State) : State :=
  s.setWorking { s.working with arms := Table.put s.working.arms k d }

/-- The progress READ_CHANNELS gives for a channel's fade at this instant (R101, R112). -/
def Fade.fractionAt (now : Time) (f : Fade) : Nat :=
  if f.frozen then f.fraction else timeFraction (f.elapsed + since now f.lastAdvance) f.duration

/-- The memory a slot is initialised with from the state at this instant (R112). -/
def State.initialMemory (s : State) (cond : Condition) : Option Nat :=
  match cond with
  | .levelCross c _ _ => some (s.chan c).level
  | .fadeProgress c _ => (s.chan c).fade.map (Fade.fractionAt s.now)
  | .inputEdge _ _ => none
  | .cueComplete _ => none

/-- Every slot's memory initialised and every flag cleared (R115, R116). -/
def initSlots (s : State) : State :=
  s.setArm { s.arm with
    memory := tabulate fun k => (s.slot k).bind fun d => s.initialMemory d.condition
    fired := Vector.replicate 8 false }

/-- A GO, GO_TO or BACK with source ARM and its status (R55, R107). -/
def armGo (k : GoKind) (s : State) : State × Status :=
  let r := goRequest k .arm s
  (r.1, r.2.status)

/-- Runs a slot's action through the operation of its name and answers its status (R107). -/
def runArmAction (a : ArmAction) (s : State) : State × Status :=
  match a with
  | .go => armGo .go s
  | .goTo n => armGo (.goTo n) s
  | .back => armGo .back s
  | .pause => pauseRequest s
  | .resume => resumeRequest s
  | .release time => ((releaseNow time s).1, .done)
  | .fade mask target time curve =>
    let r := fadeRequest mask target time curve 0 s
    (r.1, r.2.2)
  | .setMaster level time => masterRequest level time s

/-- A satisfied slot fires if its flag is clear (R108). The CUE_DONEs that its action causes are taken while the flag
stands (R110). -/
def fireSlot (s : State) (k : Fin 8) : State :=
  if Table.at s.arm.fired k then s
  else match s.slot k with
    | none => s
    | some d =>
      let s := s.setArm { s.arm with fired := Table.put s.arm.fired k true }
      let s := if d.mode = .once then
          let s := s.putSlot k none
          s.setArm { s.arm with memory := Table.put s.arm.memory k none }
        else s
      let waiting := s.arm.inbox.length
      let (s, st) := runArmAction d.action s
      putAhead waiting (offer (.armFired k d.action st) s)

/-- The satisfied slots of one arrival fire in ascending order, each whole (R110 step 3). -/
def fireSlots (satisfied : List (Fin 8)) (s : State) : State := satisfied.foldl fireSlot s

/-- Is the condition a CUE_COMPLETE of this cue? (R106) -/
def Condition.onCueDone (n : Nat) : Condition → Bool
  | .cueComplete m => m == n
  | _ => false

/-- A CUE_DONE is taken as an arrival (R106, R110). -/
def takeArrival (n : Nat) (s : State) : State :=
  let satisfied := slots.filter fun k => match s.slot k with
    | some d => d.condition.onCueDone n
    | none => false
  fireSlots satisfied s

/-- The oldest CUE_DONE waiting at the arm monitor is taken (R106, R110). Log entry 15. -/
def takeCueDone (s : State) : State :=
  match s.arm.inbox with
  | [] => s
  | a :: rest => takeArrival a.cue (s.setArm { s.arm with inbox := rest })

/-- The CUE_DONEs that reach the arm monitor before the next snapshot are taken, oldest first; the others go on
waiting (R110, R117). -/
def takeAhead (s : State) : State :=
  (s.arm.inbox.filter Arrival.ahead).foldl (fun s a => takeArrival a.cue s)
    (s.setArm { s.arm with inbox := s.arm.inbox.filter fun a => !a.ahead })

/-- The same with the CUE_DONEs that their firings cause, and those of these. A round that causes one has set a flag, so
the ninth causes none (R110). -/
def takeAllAhead (s : State) : State := (List.range 9).foldl (fun s _ => takeAhead s) s

/-- Is the condition satisfied by a change of input `i` to active or inactive? (R103) -/
def Condition.onInput (i : Input) (active : Bool) : Condition → Bool
  | .inputEdge j edge => (j == i) && match edge with
    | .rise => active
    | .fall => !active
    | .both => true
  | _ => false

/-- An input event is taken as an arrival (R103, R110). -/
def takeInputEvent (i : Input) (active : Bool) (s : State) : State :=
  let satisfied := slots.filter fun k => match s.slot k with
    | some d => d.condition.onInput i active
    | none => false
  fireSlots satisfied s

/-- Does the snapshot satisfy the condition, given the memory? (R104, R105) -/
def Condition.onSnapshot (p : Snapshot) (memory : Option Nat) : Condition → Bool
  | .levelCross c threshold dir =>
    let prev := memory.getD 0
    let new := Table.at p.levels c
    match dir with
    | .up => decide (prev < threshold ∧ threshold ≤ new)
    | .down => decide (new < threshold ∧ threshold ≤ prev)
  | .fadeProgress c value =>
    let low := match memory with
      | some prev => decide (prev < value)
      | none => true
    let reached := match Table.at p.progress c with
      | some new => decide (value ≤ new)
      | none => false
    low && reached
  | .inputEdge _ _ => false
  | .cueComplete _ => false

/-- The memory of a slot after a snapshot (R104, R105). -/
def Condition.memoryAfter (p : Snapshot) (memory : Option Nat) : Condition → Option Nat
  | .levelCross c _ _ => some (Table.at p.levels c)
  | .fadeProgress c _ => Table.at p.progress c
  | .inputEdge _ _ => memory
  | .cueComplete _ => memory

/-- A level snapshot is taken as an arrival (R104, R105, R110): flags cleared, conditions evaluated and memories
updated, satisfied slots fired. -/
def takeSnapshot (p : Snapshot) (s : State) : State :=
  let satisfied := slots.filter fun k => match s.slot k with
    | some d => d.condition.onSnapshot p (Table.at s.arm.memory k)
    | none => false
  let s := s.setArm { s.arm with
    fired := Vector.replicate 8 false
    memory := tabulate fun k => match s.slot k with
      | some d => d.condition.memoryAfter p (Table.at s.arm.memory k)
      | none => Table.at s.arm.memory k }
  fireSlots satisfied s

end Sys2Proof.Machine
end

