-- ==== Sys2Proof/Machine/Inputs.lean ====
section
/-! DEFINITION. The input unit: sampling, debounce, input events and their delivery (chapter 6). -/

namespace Sys2Proof.Machine

/-- The inputs in ascending order. -/
def inputList : List Input := List.finRange 4

/-- The other level. -/
def Level.flip : Level → Level
  | .low => .high
  | .high => .low

/-- The active sense: HIGH for ACTIVE_HIGH, LOW for ACTIVE_LOW (R118). -/
def activeAt (p : Polarity) (l : Level) : Bool :=
  match p, l with
  | .activeHigh, .high => true
  | .activeHigh, .low => false
  | .activeLow, .low => true
  | .activeLow, .high => false

/-- The input is active: judged by level and polarity each time (R118). -/
def State.active (s : State) (i : Input) : Bool :=
  activeAt (Table.at s.working.params.polarity i) (Table.at s.inputs.level i)

/-- At least one input whose role is BLACKOUT is active (R125). -/
def State.blackoutCondition (s : State) : Bool :=
  inputList.any fun i => (Table.at s.working.params.role i == .blackout) && s.active i

/-- The input unit hands the compositor the line blackout condition (R125). -/
def handBlackout (s : State) : State := s.setComp { s.comp with lineBlackout := s.blackoutCondition }

/-- The mask of the inputs that are active (R126). -/
def State.activeMask (s : State) : BitVec 4 := BitVec.ofNat 4 (maskOf s.active)

/-- The mask in which only one input is set (R126). -/
def onlyInput (i : Input) : BitVec 4 := BitVec.ofNat 4 (2 ^ i.val)

/-- A line goes to this level. -/
def setLevel (i : Input) (l : Level) (s : State) : State :=
  s.setPins { s.pins with lines := Table.put s.pins.lines i l }

/-- The wait of an input after a line change to this level (R119). -/
def State.waitAfter (i : Input) (l : Level) (s : State) : Option Wait :=
  match Table.at s.inputs.wait i with
  | none => if l = Table.at s.inputs.level i then none else some ⟨s.now, s.working.params.debounce⟩
  | some _ => none

/-- A line change: a sample of a line at a level other than the sample before it (R119). -/
def lineChange (i : Input) (l : Level) (s : State) : State :=
  s.setInputs { s.inputs with
    wait := Table.put s.inputs.wait i (s.waitAfter i l)
    sample := Table.put s.inputs.sample i l
    sampled := Table.put s.inputs.sampled i true }

/-- The line is sampled at this instant, the first of a millisecond of engine time, and no line change of this
millisecond has been seen on it (R119). Log entry 21. -/
def State.sampleOpen (i : Input) (s : State) : Bool := decide (s.clock.micro = 0) && !Table.at s.inputs.sampled i

/-- A line goes to this level in a running part: it is seen if the line is sampled at this instant, and else by the
next sample, if it still stands there (R119). Log entry 21. -/
def lineGoes (i : Input) (l : Level) (s : State) : State :=
  let s := setLevel i l s
  if s.sampleOpen i && decide (l ≠ Table.at s.inputs.sample i) then lineChange i l s else s

/-- The debounce wait of an input has run its length (R120). -/
def State.debounceDue (i : Input) (s : State) : Bool :=
  match Table.at s.inputs.wait i with
  | some w => decide (since s.now w.start ≥ w.length)
  | none => false

/-- A GO-role input performs GO at a change to active (R124). -/
def inputGo (active : Bool) (s : State) : State := if active then goOrListEnd .input s else s

/-- The delivery of an input event by the role of the input (R122 to R125). -/
def deliverInput (i : Input) (active playerFirst : Bool) (s : State) : State :=
  match Table.at s.working.params.role i with
  | .unused => s
  | .trigger => takeInputEvent i active s
  | .go =>
    if playerFirst then takeInputEvent i active (inputGo active s) else inputGo active (takeInputEvent i active s)
  | .blackout => handBlackout (takeInputEvent i active s)

/-- The input event: INPUT_CHANGE if the report flag is set, then the delivery (R122, R126). -/
def inputEvent (i : Input) (playerFirst : Bool) (s : State) : State :=
  let active := s.active i
  let s := if Table.at s.working.params.report i then
      offer (.inputChange (onlyInput i) s.activeMask 0) s
    else s
  deliverInput i active playerFirst s

/-- The debounce wait of an input expires (R120). -/
def expireDebounce (i : Input) (playerFirst : Bool) (s : State) : State :=
  let s := s.setInputs { s.inputs with
    level := Table.put s.inputs.level i (Level.flip (Table.at s.inputs.level i))
    wait := Table.put s.inputs.wait i none }
  inputEvent i playerFirst s

/-- The sampling at a reset: the lines become the debounced levels, waits are discarded, no event is produced, and
the line blackout condition is handed over (R128). -/
def sampleInputs (s : State) : State :=
  handBlackout (s.setInputs ⟨s.pins.lines, Vector.replicate 4 none, s.pins.lines, Vector.replicate 4 true⟩)

end Sys2Proof.Machine
end

