-- ==== Sys2Proof/Machine/Outputs.lean ====
section
/-! DEFINITION. Compositor, PWM unit and chain shifter, and the levels of the output pins (chapter 7). -/

namespace Sys2Proof.Machine

/-! ## Composition -/

/-- Step 3 of R134. -/
def Law.apply (law : Law) (threshold v : Nat) : Nat :=
  match law with
  | .linear => v
  | .square => v * v / 4095
  | .switch => if v ≥ threshold then 4095 else 0

/-- The composed value of one output record from a snapshot (R134). -/
def composeOutput (p : Snapshot) (black : Bool) (o : Output) : Nat :=
  match o.source with
  | none => 0
  | some c =>
    let level := Table.at p.levels c
    let v := if Table.at p.parked c then level else level * p.master / 1000
    if black then 0
    else
      let v := o.law.apply o.threshold v
      if 0 < v ∧ v < o.min then o.min else v

/-- The local output L(k+1) among the 40 outputs. -/
def localOutput (k : Fin 8) : Fin 40 := ⟨k.val, by omega⟩

/-- The chain slots S1 to S_n among the composed values, in order (R135). -/
def slotValues (n : Nat) (composed : Table Nat 40) : List Nat := (composed.toList.drop 8).take n

/-- The role of a buffer. -/
def Chain.roleOf (b : Fin 2) (c : Chain) : BufRole := (Table.at c.bufs b).role

/-- The buffer of a role, the lower-numbered first. -/
def Chain.withRole (r : BufRole) (c : Chain) : Option (Fin 2) := (List.finRange 2).find? fun b => c.roleOf b == r

/-- The shifter is SHIFTING (R141). -/
def Chain.shifting (c : Chain) : Bool := (c.withRole .shifting).isSome

/-- An IDLE shifter takes a READY buffer and begins its shift (R143). -/
def Chain.take (c : Chain) : Chain :=
  if c.shifting then c
  else match c.withRole .ready with
    | some b => { c with bufs := Table.put c.bufs b { Table.at c.bufs b with role := .shifting }, age := 0 }
    | none => c

/-- The compositor writes a frame into a chain buffer: over the READY one, counting a skip, else into the
lower-numbered FREE one (R142, R147). -/
def Chain.write (slots clock : Nat) (values : List Nat) (c : Chain) : Chain :=
  match c.withRole .ready with
  | some b => { c with bufs := Table.put c.bufs b ⟨.ready, slots, clock, values⟩, skips := min 65535 (c.skips + 1) }
  | none => match c.withRole .free with
    | some b => { c with bufs := Table.put c.bufs b ⟨.ready, slots, clock, values⟩ }
    | none => c

/-- The compositor takes a snapshot and hands its values on (R134, R135, R138, R142, R143). -/
def compose (p : Snapshot) (s : State) : State :=
  let black := s.comp.hostBlackout || s.comp.lineBlackout
  let composed : Table Nat 40 := tabulate fun o => composeOutput p black (Table.at s.working.patch o)
  let s := s.setComp { s.comp with composed := composed }
  let s := s.setPwm { s.pwm with waiting := tabulate fun k => some (Table.at composed (localOutput k)) }
  let n := s.working.params.chainSlots
  if n = 0 then s
  else s.setChain ((s.chain.write n s.working.params.chainClock (slotValues n composed)).take)

/-! ## PWM unit -/

/-- The PWM period of a frequency, in microseconds (R137). -/
def pwmPeriod (frequency : Nat) : Nat := 1000000 / frequency

/-- The period in progress has run out (R137). -/
def State.pwmDue (s : State) : Bool :=
  match s.pwm.timer with
  | some t => t.left == 0
  | none => false

/-- A period boundary (R137, R138). -/
def pwmBoundary (s : State) : State :=
  let period := pwmPeriod s.working.params.pwmFrequency
  s.setPwm {
    applied := tabulate fun k => match Table.at s.pwm.waiting k with
      | some d => d
      | none => Table.at s.pwm.applied k
    waiting := Vector.replicate 8 none
    timer := some ⟨period, period⟩ }

/-! ## Chain shifter -/

/-- The shift in progress has sent all its bits: 16 × slots periods of the buffer's clock (R145). -/
def Chain.shiftDone (c : Chain) : Bool :=
  match c.withRole .shifting with
  | some b => decide (16 * (Table.at c.bufs b).slots * 1000000 ≤ c.age * (Table.at c.bufs b).clock)
  | none => false

/-- The end of a shift: the buffer becomes FREE, and a READY buffer is taken (R144). -/
def Chain.finish (c : Chain) : Chain :=
  match c.withRole .shifting with
  | some b =>
    Chain.take { c with bufs := Table.put c.bufs b { Table.at c.bufs b with role := .free }, age := 0 }
  | none => c

/-- The chain at a reset: both buffers FREE, the shift stopped; the skip counter is the caller's (R148). -/
def Chain.stop (c : Chain) : Chain := { c with bufs := Vector.replicate 2 Buffer.empty, age := 0 }

/-! ## The output pins -/

/-- The bits of a shift: a word for each slot from the highest down, four 0 bits and the value, most significant
bit first (R143). -/
def Buffer.bits (b : Buffer) : List Bool :=
  b.values.reverse.flatMap fun v => List.replicate 4 false ++ (List.range 12).map fun k => v.testBit (11 - k)

/-- The half clock periods that have passed in the shift in progress, with its buffer. -/
def Chain.progress (c : Chain) : Option (Buffer × Nat) :=
  (c.withRole .shifting).map fun b => (Table.at c.bufs b, 2 * (c.age * (Table.at c.bufs b).clock) / 1000000)

/-- CDAT: the bit of the running clock period, low between shifts (R143). -/
def State.cdat (s : State) : Bool :=
  match s.chain.progress with
  | some (b, h) => (b.bits.drop (h / 2)).headD false
  | none => false

/-- CCLK: low in the first half of a period, high in the second (R143). -/
def State.cclk (s : State) : Bool :=
  match s.chain.progress with
  | some (b, h) => decide (h < 32 * b.slots) && (h % 2 == 1)
  | none => false

/-- CLAT: high in the second half of the last bit's period (R143). -/
def State.clat (s : State) : Bool :=
  match s.chain.progress with
  | some (b, h) => h + 1 == 32 * b.slots
  | none => false

/-- L(k+1): high for the fraction duty/4095 from the boundary, and through the whole period for a duty of 4095
(R137). -/
def State.localPin (k : Fin 8) (s : State) : Bool :=
  let duty := Table.at s.pwm.applied k
  match s.pwm.timer with
  | some t => decide (4095 ≤ duty ∨ (t.period - t.left) * 4095 < duty * t.period)
  | none => false

/-- ATTN# is pulled low: the queue holds a record and the part runs (R160). -/
def State.attention (s : State) : Bool := decide (s.phase = .running ∧ s.report.queue ≠ [])

/-- DE: asserted while a reply is being sent (R164, R171). -/
def State.de (s : State) : Bool :=
  match s.line.reply with
  | .sending _ _ => true
  | .idle => false
  | .waiting _ _ => false

/-- The line rate of the straps RATE1:RATE0, in bit/s (R164). -/
def rateOf (code : BitVec 2) : Nat :=
  match code.toNat with
  | 0 => 115200
  | 1 => 250000
  | 2 => 500000
  | _ => 1000000

/-- The ten bits of a character: start bit 0, eight data bits least significant first, stop bit 1 (R164). -/
def characterBits (b : Byte) : List Bool := false :: (List.range 8).map b.getLsbD ++ [true]

/-- TXD: the bit of the reply being sent, idle at 1 otherwise (R164). -/
def State.txd (s : State) : Bool :=
  match s.line.reply with
  | .sending frame age => ((frame.flatMap characterBits).drop (age * rateOf s.line.lineRate / 1000000)).headD true
  | .idle => true
  | .waiting _ _ => true

/-! ## Messages of the compositor -/

/-- PATCH(first, count, records) (R131). -/
def patchOp (first : Byte) (records : List RawOutput) (s : State) : State × Resp :=
  let f := first.toNat
  if f < 1 ∨ 40 < f ∨ 40 < f + records.length - 1 then refuse .badValue s
  else match allSome (records.map outputOf) with
    | none => refuse .badValue s
    | some outs =>
      let put (o : Fin 40) : Output :=
        if f - 1 ≤ o.val then (outs[o.val - (f - 1)]?).getD (Table.at s.working.patch o)
        else Table.at s.working.patch o
      (s.setWorking { s.working with patch := tabulate put }, ⟨.done, byte1 f ++ byte1 records.length⟩)

/-- One entry of READ_PATCH (R132, R208). -/
def patchEntry (s : State) (o : Fin 40) : List Byte :=
  (Table.at s.working.patch o).bytes ++ byte2 (Table.at s.comp.composed o)

/-- READ_PATCH(first, count) (R132). -/
def readPatchOp (first count : Byte) (s : State) : State × Resp :=
  let f := first.toNat
  let k := count.toNat
  if f < 1 ∨ 40 < f ∨ k < 1 ∨ 6 < k ∨ 40 < f + k - 1 then refuse .badValue s
  else
    let outs := page k (f - 1) (List.finRange 40)
    (s, ⟨.done, byte1 s.working.params.chainSlots
      ++ byte1 (flags2 s.chain.shifting (s.chain.withRole .ready).isSome) ++ byte2 s.chain.skips
      ++ byte1 f ++ byte1 k ++ outs.flatMap (patchEntry s)⟩)
/-- SET_BLACKOUT(state) (R99). -/
def setBlackoutOp (state : Byte) (s : State) : State × Resp :=
  if 1 < state.toNat then refuse .badValue s
  else
    let s := s.setComp { s.comp with hostBlackout := state.toNat == 1 }
    (s, ⟨.done, byte1 (flag s.comp.hostBlackout) ++ byte1 (flag s.comp.lineBlackout)⟩)

end Sys2Proof.Machine
end

