-- ==== Sys2Proof/Machine/Reports.lean ====
section
/-! DEFINITION. POLL: the acknowledgement, OVERFLOW and the reply (R156, R157). -/

namespace Sys2Proof.Machine

/-- The head is acknowledged: its sequence equals ack and it has been sent (R156 step 1). -/
def ReportUnit.acknowledges (ack : Nat) (u : ReportUnit) : Bool :=
  match u.queue with
  | r :: _ => (r.sequence == ack) && r.sent
  | [] => false

/-- The settling of the acknowledgement (R156). -/
def ReportUnit.settle (now : Time) (ack : Nat) (u : ReportUnit) : ReportUnit :=
  if u.acknowledges ack then
    let u' := { u with queue := u.queue.tail }
    if u.lost ≥ 1 then { u'.append now (.overflow u.lost) with lost := 0 } else u'
  else u

/-- The head record is carried: its sent flag is set (R157). -/
def ReportUnit.carry (u : ReportUnit) : ReportUnit :=
  match u.queue with
  | r :: rest => { u with queue := { r with sent := true } :: rest }
  | [] => u

/-- The record a POLL reply carries, or nothing (R157, R208). -/
def ReportUnit.headBytes (u : ReportUnit) : List Byte :=
  match u.queue with
  | r :: _ => r.bytes
  | [] => []

/-- POLL(ack) (R156, R157). -/
def pollOp (ack : Byte) (s : State) : State × Resp :=
  let u := (s.report.settle s.now ack.toNat).carry
  (s.setReport u, ⟨.done, byte1 u.queue.length ++ byte1 u.lost ++ u.headBytes⟩)

end Sys2Proof.Machine
end

