-- ==== Sys2Proof/Machine/Memory.lean ====
section
/-! DEFINITION. The bytes of a bank and of the staging area as lists of (address, byte) in canonical form. -/

namespace Sys2Proof.Machine

/-- What an unlisted address reads as: a blank byte. Log entry 9. -/
def blankByte : Byte := 0xFF

/-- The size of a bank and of the staging area: 8 KiB (section 10.1). -/
def bankSize : Nat := 8192

/-- The byte at an address. -/
def readByte : Memory → Nat → Byte
  | [], _ => blankByte
  | (b, w) :: rest, a => if b = a then w else readByte rest a

/-- An entry in front, unless it is what an unlisted address reads as. -/
def listed (a : Nat) (v : Byte) (m : Memory) : Memory := if v = blankByte then m else (a, v) :: m

/-- A byte written, keeping the canonical form. -/
def writeByte : Memory → Nat → Byte → Memory
  | [], a, v => listed a v []
  | (b, w) :: rest, a, v =>
    if b < a then (b, w) :: writeByte rest a v
    else if b = a then listed a v rest
    else listed a v ((b, w) :: rest)

/-- Bytes written from an address upward. -/
def writeBytes (m : Memory) (a : Nat) : List Byte → Memory
  | [] => m
  | v :: rest => writeBytes (writeByte m a v) (a + 1) rest

/-- `n` bytes read from an address upward. -/
def readBytes (m : Memory) (a n : Nat) : List Byte := (List.range n).map fun k => readByte m (a + k)

/-- The canonical form above an address: addresses strictly rising, no entry that reads as blank. -/
def wfFrom (low : Nat) : Memory → Bool
  | [] => true
  | (a, v) :: rest => decide (low ≤ a) && (v != blankByte) && wfFrom (a + 1) rest

/-- The canonical form of a memory. -/
def Memory.wf (m : Memory) : Bool := wfFrom 0 m

/-- The number stored in bytes, low byte first (R203). -/
def littleEndian : List Byte → Nat
  | [] => 0
  | b :: rest => b.toNat + 256 * littleEndian rest

end Sys2Proof.Machine
end

