-- ==== Sys2Proof/Machine/Image.lean ====
section
/-! DEFINITION. The show image and the bank: encoding, decoding and the validity check (R189, R190, R211). -/

namespace Sys2Proof.Machine

/-! ## Encoding (R211) -/

/-- The ids of the configuration parameters, 01H to 17H (R180). -/
def paramIds : List Nat := (List.range 23).map (· + 1)

/-- A curve in the image: point count and points, 0 for an undefined curve. -/
def curveBytes : Option (List Point) → List Byte
  | none => byte1 0
  | some pts => byte1 pts.length ++ pts.flatMap Point.bytes

/-- A cue in the image. -/
def Cue.bytes (q : Cue) : List Byte :=
  byte2 q.number ++ opt4 q.follow ++ byte1 q.actions.length ++ q.actions.flatMap Action.bytes

/-- A slot in the image: slot state, then mode, condition and action. -/
def slotBytes (d : Option ArmDef) : List Byte := byte1 (flag d.isSome) ++ armBytes d

/-- The show image (R189, R211). -/
def Show.image (w : Show) : List Byte :=
  paramIds.flatMap (fun id => byte4 (w.params.value id))
    ++ (Table.entries w.patch).flatMap Output.bytes
    ++ (Table.entries w.curves).flatMap curveBytes
    ++ (byte1 w.cues.length ++ w.cues.flatMap Cue.bytes)
    ++ (Table.entries w.arms).flatMap slotBytes

/-- The magic of a valid bank (R211). -/
def magic : Nat := 0x5A3E71C6

/-- The header (R190, R211). -/
def bankHeader (generation length : Nat) : List Byte := byte4 magic ++ byte4 generation ++ byte2 length

/-- A bank's used bytes: header, image, CRC-32 over both (R190, R211). -/
def bankBytes (generation : Nat) (image : List Byte) : List Byte :=
  let body := bankHeader generation image.length ++ image
  body ++ byte4 (crc32 body).toNat

/-! ## Decoding -/

/-- A reader of bytes: a value and the bytes after it, or none. -/
abbrev Reader (α : Type) := List Byte → Option (α × List Byte)

def read1 : Reader Nat
  | a :: rest => some (a.toNat, rest)
  | _ => none

def read4 : Reader Nat
  | a :: b :: c :: d :: rest => some ((word a b c d).toNat, rest)
  | _ => none

/-- `n` items one after another. -/
def readMany {α : Type} (item : Reader α) : Nat → Reader (List α)
  | 0, bytes => some ([], bytes)
  | n + 1, bytes =>
    match item bytes with
    | none => none
    | some (x, rest) => (readMany item n rest).map fun (xs, rest) => (x :: xs, rest)

/-- A list as a table of its length. -/
def tableOf {α : Type} (n : Nat) (l : List α) : Option (Table α n) :=
  if h : l.length = n then some ⟨l.toArray, by simpa using h⟩ else none

/-- The configuration of 23 values, each one that CONFIGURE allows (R190 check 4). -/
def paramsFrom : List (Nat × Nat) → Params → Option Params
  | [], p => some p
  | (id, v) :: rest, p => if paramOk id v then paramsFrom rest (p.set id v) else none

/-- An output record that PATCH allows (R190 check 4). -/
def readOutput : Reader Output
  | a :: b :: c :: d :: e :: f :: rest => (outputOf ⟨a, b, half c d, half e f⟩).map (·, rest)
  | _ => none

/-- A point record. -/
def readPoint : Reader Point
  | a :: b :: c :: d :: rest => some (⟨(half a b).toNat, (half c d).toNat⟩, rest)
  | _ => none

/-- A curve: undefined, or a point list that meets the shape rules (R190 check 4). -/
def readCurve : Reader (Option (List Point)) := fun bytes =>
  match read1 bytes with
  | none => none
  | some (0, rest) => some (none, rest)
  | some (n + 1, rest) =>
    if 32 < n + 1 then none
    else match readMany readPoint (n + 1) rest with
      | none => none
      | some (pts, rest) => if shapeOk pts then some (some pts, rest) else none

/-- An action record with its fields in the ranges of R30. -/
def readAction : Reader Action
  | a :: b :: c :: d :: e :: f :: g :: h :: i :: j :: rest =>
    (actionRecordOf ⟨a, half b c, word d e f g, half h i, j⟩).map (·, rest)
  | _ => none

/-- Channels strictly ascending (R30). -/
def risingChannels : List Action → Bool
  | a :: b :: rest => decide (a.channel < b.channel) && risingChannels (b :: rest)
  | _ => true

/-- A cue record within the limits of R190 check 4, the definition of its curves apart. -/
def readCue : Reader Cue := fun bytes =>
  match bytes with
  | n0 :: n1 :: f0 :: f1 :: f2 :: f3 :: k :: rest =>
    let n := (half n0 n1).toNat
    match followOf (word f0 f1 f2 f3) with
    | none => none
    | some follow =>
      if n < 1 ∨ 9999 < n ∨ k.toNat < 1 ∨ 24 < k.toNat then none
      else match readMany readAction k.toNat rest with
        | none => none
        | some (actions, rest) => if risingChannels actions then some (⟨n, follow, actions⟩, rest) else none
  | _ => none

/-- A slot: EMPTY with 0 in its other bytes, or ARMED with values that ARM allows (R190 check 4). -/
def readSlot : Reader (Option ArmDef) := fun bytes =>
  match bytes with
  | st :: mode :: rest =>
    let condition := rest.take 5
    let action := (rest.drop 5).take 11
    let rest' := rest.drop 16
    if rest.length < 16 then none
    else if st = 0 then
      if mode = 0 ∧ (condition ++ action).all (· == 0) then some (none, rest') else none
    else if st = 1 ∧ conditionReserved condition ∧ actionReserved action then
      (armDefOf mode.toNat condition action).map fun d => (some d, rest')
    else none
  | _ => none

/-- Cue numbers strictly ascending (R31). -/
def risingCues : List Cue → Bool
  | a :: b :: rest => decide (a.number < b.number) && risingCues (b :: rest)
  | _ => true

/-- The limits over the whole show of R190 check 4: pool sizes, cue count and order, curves defined. -/
def Show.withinLimits (w : Show) : Bool :=
  decide (w.pointsUsed ≤ 240) && decide (w.cues.length ≤ 64) && decide (w.actionsUsed ≤ 384) && risingCues w.cues
    && w.cues.all fun q => q.actions.all fun a => (w.curve a.curve).isSome

/-- The show of an image, if its content lies within the limits and its sections end at its end (R190 check 4,
R211). -/
def Show.ofImage (image : List Byte) : Option Show :=
  match readMany read4 23 image with
  | none => none
  | some (values, rest) =>
  match paramsFrom (paramIds.zip values) Params.default, readMany readOutput 40 rest with
  | some params, some (outs, rest) =>
    match readMany readCurve 15 rest with
    | none => none
    | some (curves, rest) =>
    match read1 rest with
    | none => none
    | some (k, rest) =>
    if 64 < k then none
    else match readMany readCue k rest with
    | none => none
    | some (cues, rest) =>
    match readMany readSlot 8 rest with
    | some (arms, []) =>
      match tableOf 40 outs, tableOf 15 curves, tableOf 8 arms with
      | some patch, some curves, some arms =>
        let w : Show := ⟨params, patch, curves, cues, arms⟩
        if w.withinLimits then some w else none
      | _, _, _ => none
    | _ => none
  | _, _ => none

/-- The check of a bank (R190): its generation and show when all four checks pass. -/
def checkBank (m : Memory) : Option (Nat × Show) :=
  let length := littleEndian (readBytes m 8 2)
  if littleEndian (readBytes m 0 4) ≠ magic then none
  else if length < 492 ∨ 5740 < length then none
  else if littleEndian (readBytes m (10 + length) 4) ≠ (crc32 (readBytes m 0 (10 + length))).toNat then none
  else (Show.ofImage (readBytes m 10 length)).map fun w => (littleEndian (readBytes m 4 4), w)

/-! ## Banks and their records -/

/-- The other bank. -/
def otherBank (b : Bank) : Bank := if b = 0 then 1 else 0

/-- The newest valid bank by the bank records (R190). -/
def newestBank (recs : Table (Option Nat) 2) : Option (Bank × Nat) :=
  match Table.at recs 0, Table.at recs 1 with
  | none, none => none
  | some g, none => some (0, g)
  | none, some g => some (1, g)
  | some g, some g' => if g' > g then some (1, g') else some (0, g)

end Sys2Proof.Machine
end

