-- ==== Sys2Proof/Machine/Node.lean ====
section
/-! DEFINITION. The commands of the node as a whole: IDENTIFY, READ_STATUS, CONFIGURE, READ_CONFIG, RESET
(sections 9.6 to 9.8). -/

namespace Sys2Proof.Machine

/-- The design revision, 1 to 255 (R177). Log entry 12. -/
def revision : Nat := if Config.revision = 0 then 1 else Config.revision.toNat

/-- IDENTIFY (R177). -/
def identifyOp (s : State) : State × Resp :=
  (s, ⟨.done, byte2 0x5246 ++ byte2 0xFC24 ++ byte1 revision ++ byte1 s.line.nodeAddr.toNat
    ++ byte1 s.line.lineRate.toNat ++ byte2 s.working.params.groupMask.toNat
    ++ byte1 24 ++ byte1 40 ++ byte1 4 ++ byte1 8 ++ byte1 16 ++ byte1 64 ++ byte2 384 ++ byte1 240 ++ byte1 32⟩)

/-- READ_STATUS (R178). -/
def readStatusOp (s : State) : State × Resp :=
  (s, ⟨.done, byte4 s.now.toNat ++ byte1 s.line.lastStart.code ++ byte2 s.line.crcErrors ++ byte2 s.line.frameErrors
    ++ byte1 s.player.state.code ++ byte2 s.player.position
    ++ byte1 s.editor.session.kindCode ++ byte2 s.editor.session.number ++ byte1 (storeCode s.mem.store)
    ++ byte1 s.report.queue.length ++ byte1 s.report.lost
    ++ byte1 (maskOf fun i : Input => Table.at s.inputs.level i == .high) ++ byte1 s.activeMask.toNat
    ++ byte1 (flags2 s.comp.hostBlackout s.comp.lineBlackout)⟩)

/-- The silence timer is restarted from this instant (R185). -/
def restartSilence (s : State) : State := s.setLine { s.line with silenceFrom := s.now }

/-- One parameter applied to its owner (R179 step 2): the input settings recompute the line blackout condition
(R127), silence_time restarts the silence timer (R181); the others are read when their owner next uses them. -/
def applyParam (id v : Nat) (s : State) : State :=
  let s := s.setWorking { s.working with params := s.working.params.set id v }
  if 0x06 ≤ id ∧ id ≤ 0x0D then handBlackout s
  else if id = 0x13 then restartSilence s
  else s

/-- The index, from 1, of the first bad pair (R179 step 1). -/
def firstBadPair (pairs : List RawPair) : Option Nat :=
  (pairs.findIdx? fun p => !paramOk p.id.toNat p.value.toNat).map (· + 1)

/-- CONFIGURE (R179). -/
def configureOp (pairs : List RawPair) (s : State) : State × Resp :=
  match firstBadPair pairs with
  | some k => (s, ⟨.badValue, byte1 k⟩)
  | none =>
    (pairs.foldl (fun s p => applyParam p.id.toNat p.value.toNat s) s, ⟨.done, byte1 pairs.length⟩)

/-- READ_CONFIG(first, count) (R182). -/
def readConfigOp (first count : Byte) (s : State) : State × Resp :=
  let f := first.toNat
  let k := count.toNat
  if f < 1 ∨ 0x17 < f ∨ k < 1 ∨ 10 < k ∨ 0x17 < f + k - 1 then refuse .badValue s
  else (s, ⟨.done, byte1 f ++ byte1 k ++ (List.range k).flatMap fun i => byte4 (s.working.params.value (f + i))⟩)

/-- RESET(mode): accepted, the reset is pending until the reply has ended (R183). -/
def resetOp (mode : Byte) (s : State) : State × Resp :=
  if mode.toNat = 0 then
    if s.mem.store.isSome then refuse .busy s
    else (s.setLine { s.line with pendingReset := some .warm }, ⟨.done, []⟩)
  else if mode.toNat = 1 then (s.setLine { s.line with pendingReset := some .cold }, ⟨.done, []⟩)
  else refuse .badValue s

end Sys2Proof.Machine
end

