-- ==== Sys2Proof/Machine/Store.lean ====
section
/-! DEFINITION. Show memory: the store and its phases, abandonment, LOAD_SHOW and READ_MEMORY (chapter 10). -/

namespace Sys2Proof.Machine

/-! ## Bytes the spec leaves open -/

/-- A 4-byte value made not to match the magic (R193, R199). -/
def nonMagic (w : Word) : Word := if w.toNat = magic then ~~~w else w

/-- The memory whose bytes from `low` upward, `n` of them, are those of `f`. -/
def bytesFrom (f : Nat → Byte) (low : Nat) : Nat → Memory
  | 0 => []
  | n + 1 => listed low (f low) (bytesFrom f (low + 1) n)

/-- The bank that ERASING leaves when it is stopped, partly erased: free bytes, with a magic that does not match (R197,
R199). Log entry 11. -/
def partlyErased (k : Nat) : Memory :=
  writeBytes (bytesFrom (Config.partialByte k) 0 bankSize) 0 (byte4 (nonMagic (Config.clearedMagic k)).toNat)

/-- `n` free bytes from an address upward, those of a write in progress. Log entry 11. -/
def partialBytes (k a n : Nat) : List Byte := (List.range n).map fun j => Config.partialByte k (a + j)

/-- The writes of PROGRAMMING in their order: the image, the CRC, the generation with the image length (R195, R211). -/
def programWrites (staging : Memory) : List (Nat × List Byte) :=
  let length := littleEndian (readBytes staging 8 2)
  [(10, readBytes staging 10 length), (10 + length, readBytes staging (10 + length) 4), (4, readBytes staging 4 6)]

/-- The bank when the writes are stopped in the one numbered `reached`: those before it are done, its bytes are free, and
those after it have not begun (R195, R199). -/
def writesStopped (k : Nat) : Nat → List (Nat × List Byte) → Memory → Memory
  | _, [], m => m
  | 0, (a, vs) :: _, m => writeBytes m a (partialBytes k a vs.length)
  | n + 1, (a, vs) :: rest, m => writesStopped k n rest (writeBytes m a vs)

/-- The bank that PROGRAMMING leaves when it is stopped: image, CRC or header partly written, every other byte as it stood
(R197, R199). Log entry 11. -/
def partlyProgrammed (k : Nat) (staging m : Memory) : Memory :=
  writesStopped k (Config.stoppedWrite k % 3) (programWrites staging) m

/-- The bytes of a bank. -/
def State.bank (b : Bank) (s : State) : Memory := Table.at s.mem.banks b

/-- Replaces the bytes of a bank. -/
def State.putBank (b : Bank) (m : Memory) (s : State) : State :=
  s.setMem { s.mem with banks := Table.put s.mem.banks b m }

/-- The target is left in a state that the spec leaves open. -/
def leaveBank (b : Bank) (m : Memory) (s : State) : State := (s.putBank b m).tookFree

/-- The phase in progress is stopped where it stands (R197, R199): VERIFYING has written nothing. -/
def stopPhase (r : Store) (s : State) : State :=
  match r.phase with
  | .erasing => leaveBank r.target (partlyErased s.free) s
  | .programming => leaveBank r.target (partlyProgrammed s.free s.mem.staging (s.bank r.target)) s
  | .verifying => s

/-! ## The store (R192 to R199) -/

/-- The acceptance of a store for a target and a generation (R193 step 3). -/
def acceptStore (target : Bank) (generation : Nat) (s : State) : State :=
  let cleared := writeBytes (s.bank target) 0 (byte4 (nonMagic (Config.clearedMagic s.free)).toNat)
  let s := (s.putBank target cleared).tookFree
  s.setMem { s.mem with
    recs := Table.put s.mem.recs target none
    store := some ⟨.erasing, target, generation, s.now + 500#32⟩
    staging := writeBytes [] 0 (bankBytes generation s.working.image) }

/-- The target and the generation of the next store; none when no greater generation can be given (R193). -/
def nextStore (recs : Table (Option Nat) 2) : Option (Bank × Nat) :=
  match newestBank recs with
  | none => some (0, 1)
  | some (b, g) => if g ≥ 4294967295 then none else some (otherBank b, g + 1)

/-- STORE_SHOW (R193). -/
def storeShowOp (s : State) : State × Resp :=
  if s.mem.store.isSome then refuse .busy s
  else match nextStore s.mem.recs with
    | none => refuse .noSpace s
    | some (b, g) => (acceptStore b g s, ⟨.accepted, byte1 b.val ++ byte4 g⟩)

/-- A store ends with this result: the record is discarded, the staging area freed, the last store result set and
STORE_DONE offered (R196, R197). -/
def endStore (ok : Bool) (r : Store) (s : State) : State :=
  let s := s.setMem { s.mem with
    recs := Table.put s.mem.recs r.target (if ok then some r.generation else none)
    store := none
    staging := []
    lastResult := some ⟨ok, r.target, r.generation⟩ }
  offer (.storeDone ok r.target r.generation) s

/-- A store ends FAILED where its phase stands (R197). -/
def failStore (r : Store) (s : State) : State := endStore false r (stopPhase r s)

/-- The store is in this phase. -/
def State.storeIn (p : StorePhase) (s : State) : Option Store :=
  match s.mem.store with
  | some r => if r.phase = p then some r else none
  | none => none

/-- The store moves to a phase that must end within `ms`. -/
def enterPhase (p : StorePhase) (ms : Nat) (r : Store) (s : State) : State :=
  s.setMem { s.mem with store := some { r with phase := p, limit := s.now + BitVec.ofNat 32 ms } }

/-- The erase ends (R194): a blank bank and PROGRAMMING, or FAILED. -/
def eraseEnds (complete : Bool) (r : Store) (s : State) : State :=
  if complete then enterPhase .programming 800 r (s.putBank r.target []) else failStore r s

/-- The bytes that a store writes after the magic: generation, length, image and CRC (R195). -/
def stagedBytes (staging : Memory) : List Byte :=
  readBytes staging 4 (10 + littleEndian (readBytes staging 8 2))

/-- The programming ends (R195): everything but the magic is written and VERIFYING begins, or FAILED. -/
def programmingEnds (taken : Bool) (r : Store) (s : State) : State :=
  if taken then
    enterPhase .verifying 100 r (s.putBank r.target (writeBytes (s.bank r.target) 4 (stagedBytes s.mem.staging)))
  else failStore r s

/-- The read-back and the magic write end (R196): `same` and `magicRead` are the memory's reports. A byte that the memory
finds to differ is one of those compared, which are then free; a magic that does not read back is another value. Log
entries 11 and 18. -/
def verifyEnds (same magicRead : Bool) (r : Store) (s : State) : State :=
  let bank := s.bank r.target
  let staged := stagedBytes s.mem.staging
  if !same then
    endStore false r (leaveBank r.target (writeBytes bank 4 (partialBytes s.free 4 staged.length)) s)
  else if readBytes bank 4 staged.length ≠ staged then failStore r s
  else if magicRead then endStore true r (s.putBank r.target (writeBytes bank 0 (byte4 magic)))
  else
    let other := byte4 (nonMagic (Config.clearedMagic s.free)).toNat
    endStore false r (leaveBank r.target (writeBytes bank 0 other) s)

/-- The phase in progress has reached its phase limit (R197). Log entry 28. -/
def State.phaseLimitDue (s : State) : Option Store :=
  match s.mem.store with
  | some r => if since s.now r.limit < 2147483648 then some r else none
  | none => none

/-- A store is abandoned where it stands, without a report (R199). -/
def abandonStore (s : State) : State :=
  match s.mem.store with
  | none => s
  | some r =>
    let s := stopPhase r s
    s.setMem { s.mem with store := none, staging := [] }

/-! ## LOAD_SHOW (R200, R201) -/

/-- The precondition of R200 step 2. -/
def State.loadable (s : State) : Bool :=
  decide (s.player.state = .stopped ∧ s.player.sched = [] ∧ s.editor.session = .idle) && !s.fade.anyFade

/-- Steps 1 and 2 of R201: the bank records after the checks, and the bank that passes. -/
def findShow (s : State) : Table (Option Nat) 2 × Option (Bank × Nat × Show) :=
  match newestBank s.mem.recs with
  | none => (s.mem.recs, none)
  | some (b, _) =>
    match checkBank (s.bank b) with
    | some (g, w) => (s.mem.recs, some (b, g, w))
    | none =>
      let recs := Table.put s.mem.recs b none
      match Table.at recs (otherBank b) with
      | none => (recs, none)
      | some _ =>
        match checkBank (s.bank (otherBank b)) with
        | some (g, w) => (recs, some (otherBank b, g, w))
        | none => (Table.put recs (otherBank b) none, none)

/-- The working show is replaced, and each owner takes its part (R201 step 4). -/
def takeShow (w : Show) (s : State) : State := initSlots (restartSilence (handBlackout (s.setWorking w)))

/-- LOAD_SHOW (R200, R201). -/
def loadShowOp (s : State) : State × Resp :=
  if s.mem.store.isSome then refuse .busy s
  else if !s.loadable then refuse .wrongState s
  else match findShow s with
    | (recs, none) => (s.setMem { s.mem with recs := recs }, ⟨.notFound, []⟩)
    | (recs, some (b, g, w)) =>
      (takeShow w (s.setMem { s.mem with recs := recs }), ⟨.done, byte1 b.val ++ byte4 g⟩)

/-! ## READ_MEMORY -/

/-- The bank record items of READ_MEMORY (R202, R208). -/
def recordBytes : Option Nat → List Byte
  | some g => byte1 1 ++ byte4 g
  | none => byte1 0 ++ byte4 0

/-- The store item of READ_MEMORY (R202, R203). -/
def storeBytes : Option Store → List Byte
  | some r => byte1 r.target.val ++ byte4 r.generation
  | none => byte1 0xFF ++ byte4 0

/-- The last store result item of READ_MEMORY (R202, R203, R207). -/
def resultBytes : Option StoreResult → List Byte
  | some r => byte1 (if r.ok then 1 else 2) ++ byte1 r.bank.val ++ byte4 r.generation
  | none => byte1 0 ++ byte1 0xFF ++ byte4 0

/-- READ_MEMORY (R202). -/
def readMemoryOp (s : State) : State × Resp :=
  let m := s.mem
  (s, ⟨.done, recordBytes (Table.at m.recs 0) ++ recordBytes (Table.at m.recs 1)
    ++ byte1 (bankCode ((newestBank m.recs).map Prod.fst)) ++ byte1 (storeCode m.store) ++ storeBytes m.store
    ++ resultBytes m.lastResult⟩)

end Sys2Proof.Machine
end

