-- ==== Sys2Proof/WellFormed.lean ====
section
/-! DEFINITION. Which commands can stand on the show line: the item counts that R208 allows. -/

namespace Sys2Proof

/-- The payload has a length that R208 lists for its kind (the check of R170, step 2). -/
def Message.lengthOk : Message → Bool
  | .configure pairs => decide (1 ≤ pairs.length ∧ pairs.length ≤ 10)
  | .patch _ records => decide (1 ≤ records.length ∧ records.length ≤ 8)
  | .curvePoints _ points => decide (1 ≤ points.length ∧ points.length ≤ 12)
  | .cueActions records => decide (1 ≤ records.length ∧ records.length ≤ 4)
  | .arm _ _ condition action => decide (condition.length = 5 ∧ action.length = 11)
  | .identify | .readStatus | .readConfig _ _ | .readPatch _ _ | .reset _ | .editCurve _ _ | .editCue _
  | .cueFollow _ | .editCommit | .editAbort | .deleteCue _ | .dropCurve _ | .readCue _ _ | .readCurve _ _
  | .listCues _ | .go | .goTo _ | .back | .pause | .resume | .release _ | .readPlayer _ _ | .fade _ _ _ _ _
  | .park _ _ | .unpark _ | .setMaster _ _ | .setBlackout _ | .readChannels _ _ | .disarm _ | .readArm _
  | .poll _ | .storeShow | .loadShow | .readMemory => true

/-- A command is well formed when its frame can be sent: every list has a length that R208 allows. -/
def WellFormed : Instr → Bool
  | .configure _ pairs => Message.lengthOk (.configure pairs)
  | .patch _ first records => Message.lengthOk (.patch first records)
  | .curvePoints _ first points => Message.lengthOk (.curvePoints first points)
  | .cueActions _ records => Message.lengthOk (.cueActions records)
  | .arm _ slot mode condition action => Message.lengthOk (.arm slot mode condition action)
  | .powerOn _ _ | .rstPinLow _ _ | .powerLoss | .startUpLoad | .receiveCharacter _ _ | .frameGapTimeout
  | .replyStart | .replyEnd | .identify _ | .readStatus _ | .readConfig _ _ _ | .readPatch _ _ _ | .reset _ _
  | .editCurve _ _ _ | .editCue _ _ | .cueFollow _ _ | .editCommit _ | .editAbort _ | .deleteCue _ _
  | .dropCurve _ _ | .readCue _ _ _ | .readCurve _ _ _ | .listCues _ _ | .go _ | .goTo _ _ | .back _
  | .pause _ | .resume _ | .release _ _ | .readPlayer _ _ _ | .fade _ _ _ _ _ _ | .park _ _ _ | .unpark _ _
  | .setMaster _ _ _ | .setBlackout _ _ | .readChannels _ _ _ | .disarm _ _ | .readArm _ _ | .poll _ _
  | .storeShow _ | .loadShow _ | .readMemory _ | .frameEvent | .armCueDoneArrival | .scheduledStartExpiry
  | .followExpiry | .editIdleTimeout | .inputLineChange _ _ | .debounceExpiry _ _ | .pwmPeriodBoundary
  | .chainShiftEnd | .silenceTimerExpiry | .eraseEnd _ | .programmingEnd _ | .verifyEnd _ _ | .storePhaseLimit
  | .rstPinHigh => true

end Sys2Proof
end

