-- ==== Sys2Proof/Machine/Messages.lean ====
section
/-! DEFINITION. The messages as their owning blocks take them (R170), their kind codes and payload layouts (R206,
R208), and the checks of the line interface. -/

namespace Sys2Proof.Machine

/-! ## The player's messages -/

/-- A node-addressed or group GO, GO_TO or BACK with its reply (R61). -/
def goOp (k : GoKind) (source : Source) (s : State) : State × Resp :=
  match goRequest k source s with
  | (s, .started cue skipped) => (s, ⟨.done, byte2 cue ++ byte1 skipped ++ byte1 s.player.state.code⟩)
  | (s, .refused st) => (s, ⟨st, []⟩)

/-- PAUSE with its reply (R73). -/
def pauseOp (s : State) : State × Resp :=
  match pauseRequest s with
  | (s, .done) => (s, ⟨.done, byte1 s.player.state.code ++ byte1 (resumeCode s.player.resumeTo)⟩)
  | (s, st) => (s, ⟨st, []⟩)

/-- RESUME with its reply (R75). -/
def resumeOp (s : State) : State × Resp :=
  match resumeRequest s with
  | (s, .done) => (s, ⟨.done, byte1 s.player.state.code⟩)
  | (s, st) => (s, ⟨st, []⟩)

/-- RELEASE(time) with its reply (R76). -/
def releaseOp (time : Half) (s : State) : State × Resp :=
  if 60000 < time.toNat then refuse .badValue s
  else
    let (s, entries, started) := releaseNow time.toNat s
    (s, ⟨.done, byte1 entries ++ byte1 started⟩)

/-- What is left of a countdown as READ_PLAYER shows it (R82, R83). -/
def State.shownLeft (s : State) (c : Countdown) : Nat :=
  if s.player.state = .paused then c.remaining else c.leftAt s.now

/-- A live entry of READ_PLAYER (R208). -/
def Live.bytes (e : Live) : List Byte := byte2 e.cue ++ byte1 e.count ++ byte1 (flag e.cut)

/-- A scheduled start of READ_PLAYER (R208). -/
def schedBytes (s : State) (e : Sched) : List Byte :=
  byte1 (chanNumber e.channel) ++ byte2 e.owner ++ byte2 e.target ++ byte4 e.time ++ byte1 e.curve
    ++ byte2 (s.shownLeft e.left)

/-- The common items of READ_PLAYER (R82). -/
def playerCommon (s : State) : List Byte :=
  let p := s.player
  byte1 p.state.code ++ byte2 p.position ++ byte2 (((s.working.nextCue p.position).map (·.number)).getD 0)
    ++ byte1 (resumeCode p.resumeTo) ++ opt4 (p.follow.map s.shownLeft) ++ byte1 p.sched.length
    ++ byte1 p.live.length

/-- READ_PLAYER(part, first) (R82, R83). -/
def readPlayerOp (part first : Byte) (s : State) : State × Resp :=
  let p := s.player
  if part.toNat = 0 then
    if p.live.length < first.toNat then refuse .badValue s
    else
      let entries := page 10 first.toNat p.live
      (s, ⟨.done, playerCommon s ++ byte1 entries.length ++ entries.flatMap Live.bytes⟩)
  else if part.toNat = 1 then
    if p.sched.length < first.toNat then refuse .badValue s
    else
      let entries := page 3 first.toNat p.sched
      (s, ⟨.done, playerCommon s ++ byte1 entries.length ++ entries.flatMap (schedBytes s)⟩)
  else refuse .badValue s

/-! ## Direct control -/

/-- FADE with its reply (R88). -/
def fadeOp (mask : ChanMask) (target : Half) (time : Word) (curve tag : Byte) (s : State) : State × Resp :=
  match fadeRequest mask target.toNat time.toNat curve.toNat tag.toNat s with
  | (s, k, .done) =>
    (s, ⟨.done, byte1 k.created ++ byte1 k.sets ++ byte1 k.skipped
      ++ byte1 (flag (decide (tag ≠ 0) && (s.fade.batch tag.toNat).isSome))⟩)
  | (s, _, st) => (s, ⟨st, []⟩)

/-- PARK(mask, level) with its reply (R93). -/
def parkOp (mask : ChanMask) (level : Half) (s : State) : State × Resp :=
  if mask = 0 ∨ 4095 < level.toNat then refuse .badValue s
  else
    let named := maskChannels mask
    let newly := named.countP fun c => !(s.chan c).isParked
    let already := named.countP fun c => (s.chan c).isParked
    let cut := named.countP fun c => (s.chan c).fade.isSome
    (parkNow mask level.toNat s, ⟨.done, byte1 newly ++ byte1 already ++ byte1 cut⟩)

/-- UNPARK(mask) with its reply (R95). -/
def unparkOp (mask : ChanMask) (s : State) : State × Resp :=
  if mask = 0 then refuse .badValue s
  else (unparkNow mask s, ⟨.done, byte1 ((maskChannels mask).countP fun c => (s.chan c).isParked)⟩)

/-- SET_MASTER(level, time) with its reply (R97). -/
def setMasterOp (level time : Half) (s : State) : State × Resp :=
  match masterRequest level.toNat time.toNat s with
  | (s, .done) => (s, ⟨.done, byte2 s.fade.master ++ byte2 level.toNat⟩)
  | (s, st) => (s, ⟨st, []⟩)

/-- What remains of the master fade at this instant, at least 0 (R100). -/
def MasterFade.remaining (now : Time) (m : MasterFade) : Nat := m.duration - m.elapsed - since now m.lastAdvance

/-- The channel entry of READ_CHANNELS (R101, R208). -/
def channelEntry (s : State) (c : Chan) : List Byte :=
  let r := s.chan c
  byte2 r.level ++ byte2 r.lastOwner.code ++ match r.fade with
    | some f => byte2 f.owner.code ++ byte2 f.target ++ byte2 (f.fractionAt s.now + 32768 * flag f.frozen)
    | none => byte2 0 ++ byte2 0xFFFF ++ byte2 0xFFFF

/-- READ_CHANNELS(first, count) (R100). -/
def readChannelsOp (first count : Byte) (s : State) : State × Resp :=
  let f := first.toNat
  let k := count.toNat
  if f < 1 ∨ 24 < f ∨ k < 1 ∨ 4 < k ∨ 24 < f + k - 1 then refuse .badValue s
  else
    (s, ⟨.done, byte2 s.fade.master ++ opt2 (s.fade.masterCtx.map (·.target))
      ++ opt2 (s.fade.masterCtx.map (MasterFade.remaining s.now))
      ++ byte1 (flags2 s.comp.hostBlackout s.comp.lineBlackout)
      ++ byte3 (maskOf fun c : Chan => (s.chan c).isParked) ++ byte3 (maskOf fun c : Chan => (s.chan c).fade.isSome)
      ++ byte1 s.fade.tags.length ++ (page k (f - 1) channels).flatMap (channelEntry s)⟩)

/-! ## Arm monitor -/

/-- ARM(slot, mode, condition, action) (R111). -/
def armOp (slot mode : Byte) (condition action : List Byte) (s : State) : State × Resp :=
  match slotOf slot.toNat, armDefOf mode.toNat condition action with
  | some k, some d =>
    let memory := s.initialMemory d.condition
    let was := (s.slot k).isSome
    let s := s.putSlot k (some d)
    (s.setArm { s.arm with memory := Table.put s.arm.memory k memory, fired := Table.put s.arm.fired k false },
      ⟨.done, byte1 k.val ++ byte1 (flag was) ++ opt2 memory⟩)
  | _, _ => refuse .badValue s

/-- DISARM(slot) (R113). -/
def disarmOp (slot : Byte) (s : State) : State × Resp :=
  match slotOf slot.toNat with
  | none => refuse .badValue s
  | some k =>
    let was := (s.slot k).isSome
    let s := s.putSlot k none
    (s.setArm { s.arm with memory := Table.put s.arm.memory k none, fired := Table.put s.arm.fired k false },
      ⟨.done, byte1 (flag was)⟩)

/-- READ_ARM(slot) (R114). Slot j stands in bit j of both masks: the model's choice (log entry 34). -/
def readArmOp (slot : Byte) (s : State) : State × Resp :=
  match slotOf slot.toNat with
  | none => refuse .badValue s
  | some k =>
    (s, ⟨.done, byte1 (maskOf fun j : Fin 8 => (s.slot j).isSome)
      ++ byte1 (maskOf fun j : Fin 8 => Table.at s.arm.fired j) ++ byte1 k.val ++ byte1 (flag (s.slot k).isSome)
      ++ armBytes (s.slot k) ++ opt2 (Table.at s.arm.memory k)⟩)

/-! ## Handing a message to its owner -/

/-- Where a message comes from: a node-addressed frame, or a group or broadcast frame (R85). -/
inductive Via where
  | node | group
  deriving DecidableEq, Repr

/-- The source of a GO that came this way (R55). -/
def Via.source : Via → Source
  | .node => .host
  | .group => .group

/-- The owning block takes the message at this instant (R170). -/
def runMessage (via : Via) (m : Message) (s : State) : State × Resp :=
  match m with
  | .identify => identifyOp s
  | .readStatus => readStatusOp s
  | .configure pairs => configureOp pairs s
  | .readConfig first count => readConfigOp first count s
  | .patch first records => patchOp first records s
  | .readPatch first count => readPatchOp first count s
  | .reset mode => resetOp mode s
  | .editCurve id count => editCurveOp id count s
  | .curvePoints first points => curvePointsOp first points s
  | .editCue cue => editCueOp cue s
  | .cueActions records => cueActionsOp records s
  | .cueFollow follow => cueFollowOp follow s
  | .editCommit => editCommitOp s
  | .editAbort => editAbortOp s
  | .deleteCue cue => deleteCueOp cue s
  | .dropCurve id => dropCurveOp id s
  | .readCue cue first => readCueOp cue first s
  | .readCurve id first => readCurveOp id first s
  | .listCues after => listCuesOp after s
  | .go => goOp .go via.source s
  | .goTo cue => goOp (.goTo cue.toNat) via.source s
  | .back => goOp .back via.source s
  | .pause => pauseOp s
  | .resume => resumeOp s
  | .release time => releaseOp time s
  | .readPlayer part first => readPlayerOp part first s
  | .fade mask target time curve tag => fadeOp mask target time curve tag s
  | .park mask level => parkOp mask level s
  | .unpark mask => unparkOp mask s
  | .setMaster level time => setMasterOp level time s
  | .setBlackout state => setBlackoutOp state s
  | .readChannels first count => readChannelsOp first count s
  | .arm slot mode condition action => armOp slot mode condition action s
  | .disarm slot => disarmOp slot s
  | .readArm slot => readArmOp slot s
  | .poll ack => pollOp ack s
  | .storeShow => storeShowOp s
  | .loadShow => loadShowOp s
  | .readMemory => readMemoryOp s

/-! ## Kinds and payloads -/

/-- The KIND byte of a message (R206). -/
def kindOf : Message → Byte
  | .identify => 0x01
  | .readStatus => 0x02
  | .configure _ => 0x03
  | .readConfig _ _ => 0x04
  | .patch _ _ => 0x05
  | .readPatch _ _ => 0x06
  | .reset _ => 0x0F
  | .editCurve _ _ => 0x10
  | .curvePoints _ _ => 0x11
  | .editCue _ => 0x12
  | .cueActions _ => 0x13
  | .cueFollow _ => 0x14
  | .editCommit => 0x15
  | .editAbort => 0x16
  | .deleteCue _ => 0x17
  | .dropCurve _ => 0x18
  | .readCue _ _ => 0x19
  | .readCurve _ _ => 0x1A
  | .listCues _ => 0x1B
  | .go => 0x20
  | .goTo _ => 0x21
  | .back => 0x22
  | .pause => 0x23
  | .resume => 0x24
  | .release _ => 0x25
  | .readPlayer _ _ => 0x26
  | .fade _ _ _ _ _ => 0x30
  | .park _ _ => 0x31
  | .unpark _ => 0x32
  | .setMaster _ _ => 0x33
  | .setBlackout _ => 0x34
  | .readChannels _ _ => 0x35
  | .arm _ _ _ _ => 0x38
  | .disarm _ => 0x39
  | .readArm _ => 0x3A
  | .poll _ => 0x3C
  | .storeShow => 0x3D
  | .loadShow => 0x3E
  | .readMemory => 0x3F

/-- The kinds that a group or broadcast frame may carry (R175). -/
def groupPermits (kind : Byte) : Bool :=
  [0x20#8, 0x21#8, 0x22#8, 0x23#8, 0x24#8, 0x25#8, 0x30#8, 0x33#8, 0x34#8].contains kind

/-- The reserved fields of a message are 0 (R170 step 3, R203); only ARM has any. -/
def reservedOk : Message → Bool
  | .arm _ _ condition action => conditionReserved condition && actionReserved action
  | _ => true

/-- Steps 2 and 3 of R170 for a message of a known kind: the message, or the refusal status. -/
def lineCheck (m : Message) : Except Status Message :=
  if !m.lengthOk then .error .badLength else if !reservedOk m then .error .badValue else .ok m

/-- Pairs of CONFIGURE, 5 bytes each. -/
def parsePairs : List Byte → Option (List RawPair)
  | [] => some []
  | a :: b :: c :: d :: e :: rest => (parsePairs rest).map (⟨a, word b c d e⟩ :: ·)
  | _ => none

/-- Output records of PATCH, 6 bytes each. -/
def parseOutputs : List Byte → Option (List RawOutput)
  | [] => some []
  | a :: b :: c :: d :: e :: f :: rest => (parseOutputs rest).map (⟨a, b, half c d, half e f⟩ :: ·)
  | _ => none

/-- Point records of CURVE_POINTS, 4 bytes each. -/
def parsePoints : List Byte → Option (List RawPoint)
  | [] => some []
  | a :: b :: c :: d :: rest => (parsePoints rest).map (⟨half a b, half c d⟩ :: ·)
  | _ => none

/-- Action records of CUE_ACTIONS, 10 bytes each. -/
def parseActions : List Byte → Option (List RawAction)
  | [] => some []
  | a :: b :: c :: d :: e :: f :: g :: h :: i :: j :: rest =>
    (parseActions rest).map (⟨a, half b c, word d e f g, half h i, j⟩ :: ·)
  | _ => none

/-- A payload of no bytes. -/
def payload0 (m : Message) : List Byte → Option Message
  | [] => some m
  | _ => none

/-- A payload of one byte. -/
def payload1 (m : Byte → Message) : List Byte → Option Message
  | [a] => some (m a)
  | _ => none

/-- A payload of two bytes that are fields of their own. -/
def payload2 (m : Byte → Byte → Message) : List Byte → Option Message
  | [a, b] => some (m a b)
  | _ => none

/-- A payload of one 2-byte field. -/
def payloadHalf (m : Half → Message) : List Byte → Option Message
  | [a, b] => some (m (half a b))
  | _ => none

/-- The payload layouts of R208, by kind: no layout for an unknown kind, no message for a payload of another
length. -/
def layout (kind : Byte) : Option (List Byte → Option Message) :=
  match kind.toNat with
  | 0x01 => some (payload0 .identify)
  | 0x02 => some (payload0 .readStatus)
  | 0x03 => some fun p => (parsePairs p).map .configure
  | 0x04 => some (payload2 .readConfig)
  | 0x05 => some fun p => match p with
    | a :: rest => (parseOutputs rest).map (.patch a)
    | [] => none
  | 0x06 => some (payload2 .readPatch)
  | 0x0F => some (payload1 .reset)
  | 0x10 => some (payload2 .editCurve)
  | 0x11 => some fun p => match p with
    | a :: rest => (parsePoints rest).map (.curvePoints a)
    | [] => none
  | 0x12 => some (payloadHalf .editCue)
  | 0x13 => some fun p => (parseActions p).map .cueActions
  | 0x14 => some fun p => match p with
    | [a, b, c, d] => some (.cueFollow (word a b c d))
    | _ => none
  | 0x15 => some (payload0 .editCommit)
  | 0x16 => some (payload0 .editAbort)
  | 0x17 => some (payloadHalf .deleteCue)
  | 0x18 => some (payload1 .dropCurve)
  | 0x19 => some fun p => match p with
    | [a, b, c] => some (.readCue (half a b) c)
    | _ => none
  | 0x1A => some (payload2 .readCurve)
  | 0x1B => some (payloadHalf .listCues)
  | 0x20 => some (payload0 .go)
  | 0x21 => some (payloadHalf .goTo)
  | 0x22 => some (payload0 .back)
  | 0x23 => some (payload0 .pause)
  | 0x24 => some (payload0 .resume)
  | 0x25 => some (payloadHalf .release)
  | 0x26 => some (payload2 .readPlayer)
  | 0x30 => some fun p => match p with
    | [m0, m1, m2, t0, t1, d0, d1, d2, d3, c, g] =>
      some (.fade (mask3 m0 m1 m2) (half t0 t1) (word d0 d1 d2 d3) c g)
    | _ => none
  | 0x31 => some fun p => match p with
    | [m0, m1, m2, l0, l1] => some (.park (mask3 m0 m1 m2) (half l0 l1))
    | _ => none
  | 0x32 => some fun p => match p with
    | [m0, m1, m2] => some (.unpark (mask3 m0 m1 m2))
    | _ => none
  | 0x33 => some fun p => match p with
    | [a, b, c, d] => some (.setMaster (half a b) (half c d))
    | _ => none
  | 0x34 => some (payload1 .setBlackout)
  | 0x35 => some (payload2 .readChannels)
  | 0x38 => some fun p => match p with
    | slot :: mode :: rest => some (.arm slot mode (rest.take 5) (rest.drop 5))
    | _ => none
  | 0x39 => some (payload1 .disarm)
  | 0x3A => some (payload1 .readArm)
  | 0x3C => some (payload1 .poll)
  | 0x3D => some (payload0 .storeShow)
  | 0x3E => some (payload0 .loadShow)
  | 0x3F => some (payload0 .readMemory)
  | _ => none

/-- The check of R170 over the bytes of a frame: kind, length, reserved fields. -/
def parseMessage (kind : Byte) (payload : List Byte) : Except Status Message :=
  match layout kind with
  | none => .error .badKind
  | some f => match f payload with
    | none => .error .badLength
    | some m => lineCheck m

/-! ## The payload a message is sent with -/

/-- A (id, value) pair of CONFIGURE, 5 bytes (R208). -/
def pairBytes (p : RawPair) : List Byte := p.id :: byte4 p.value.toNat

/-- An output record of PATCH, 6 bytes (R208). -/
def outputRecordBytes (r : RawOutput) : List Byte := r.source :: r.law :: byte2 r.threshold.toNat ++ byte2 r.min.toNat

/-- An action record of CUE_ACTIONS, 10 bytes (R209). -/
def actionRecordBytes (r : RawAction) : List Byte :=
  r.channel :: byte2 r.target.toNat ++ byte4 r.time.toNat ++ byte2 r.delay.toNat ++ [r.curve]

/-- A point record of CURVE_POINTS, 4 bytes (R209). -/
def pointRecordBytes (r : RawPoint) : List Byte := byte2 r.x.toNat ++ byte2 r.y.toNat

/-- The command payload of a message, its fields one after another (R208). -/
def payloadOf : Message → List Byte
  | .identify => []
  | .readStatus => []
  | .configure pairs => pairs.flatMap pairBytes
  | .readConfig first count => [first, count]
  | .patch first records => first :: records.flatMap outputRecordBytes
  | .readPatch first count => [first, count]
  | .reset mode => [mode]
  | .editCurve id count => [id, count]
  | .curvePoints first points => first :: points.flatMap pointRecordBytes
  | .editCue cue => byte2 cue.toNat
  | .cueActions records => records.flatMap actionRecordBytes
  | .cueFollow follow => byte4 follow.toNat
  | .editCommit => []
  | .editAbort => []
  | .deleteCue cue => byte2 cue.toNat
  | .dropCurve id => [id]
  | .readCue cue first => byte2 cue.toNat ++ [first]
  | .readCurve id first => [id, first]
  | .listCues after => byte2 after.toNat
  | .go => []
  | .goTo cue => byte2 cue.toNat
  | .back => []
  | .pause => []
  | .resume => []
  | .release time => byte2 time.toNat
  | .readPlayer part first => [part, first]
  | .fade mask target time curve tag =>
    byte3 mask.toNat ++ byte2 target.toNat ++ byte4 time.toNat ++ [curve, tag]
  | .park mask level => byte3 mask.toNat ++ byte2 level.toNat
  | .unpark mask => byte3 mask.toNat
  | .setMaster level time => byte2 level.toNat ++ byte2 time.toNat
  | .setBlackout state => [state]
  | .readChannels first count => [first, count]
  | .arm slot mode condition action => slot :: mode :: condition ++ action
  | .disarm slot => [slot]
  | .readArm slot => [slot]
  | .poll ack => [ack]
  | .storeShow => []
  | .loadShow => []
  | .readMemory => []

/-- The bytes of a host frame with this header and message (R165, R204): its CRC is over the address byte to the last
payload byte (R205). -/
def hostFrame (h : Hdr) (m : Message) : List Byte :=
  let payload := payloadOf m
  let body := [h.addr, h.seq, kindOf m, BitVec.ofNat 8 payload.length] ++ payload
  0xD2#8 :: body ++ byte2 (crc16 body).toNat

end Sys2Proof.Machine
end

