-- ==== Sys2Proof/Machine/Restart.lean ====
section
/-! DEFINITION. The starts of the part: power-on, RST#, COLD, WARM, power loss, and the load at start-up (R5, R14,
R28, R29, R84, R116, R128, R140, R148, R161 to R163, R188, R191, R199). -/

namespace Sys2Proof.Machine

/-- The frame timer starts with a full count of frame_period (R5). -/
def startFrameTimer (s : State) : State :=
  s.setClock { s.clock with frameTimer := some (s.working.params.framePeriod * 1000) }

/-- A start other than WARM takes effect: the store is abandoned, every block takes its reset values, the straps are
read (R188, R199). -/
def coldStart (reason : Reason) (phase : Phase) (s : State) : State :=
  let s := abandonStore s
  State.cold reason phase s.pins s.mem.banks s.pending s.free

/-- The straps as the pins carry them at a start. -/
def setStraps (addr : BitVec 6) (rate : BitVec 2) (s : State) : State :=
  s.setPins { s.pins with strapAddr := addr, strapRate := rate }

/-- Power is applied (R188); with RST# low the part is held. Log entries 6 and 7. -/
def applyPower (addr : BitVec 6) (rate : BitVec 2) (s : State) : State :=
  coldStart .power (if s.pins.rstLow then .held else .loading) (setStraps addr rate s)

/-- RST# goes low (R188): a part with power is reset and held. -/
def pullReset (addr : BitVec 6) (rate : BitVec 2) (s : State) : State :=
  let s := setStraps addr rate s
  let s := s.setPins { s.pins with rstLow := true }
  if s.phase = .off then s else coldStart .pin .held s

/-- RST# returns high (R188): the start-up read of the banks begins. -/
def releaseReset (s : State) : State :=
  let s := s.setPins { s.pins with rstLow := false }
  if s.phase = .held then { s with phase := .loading } else s

/-- Power is lost (R199). Log entry 6. -/
def losePower (s : State) : State := coldStart s.line.lastStart .off s

/-- The working show at a start: the image of the newest valid bank, or the defaults (R191). -/
def startShow (recs : Table (Option Nat) 2) (images : Table (Option (Nat × Show)) 2) : Show :=
  match newestBank recs with
  | some (b, _) => match Table.at images b with
    | some (_, w) => w
    | none => Show.default
  | none => Show.default

/-- The PWM period timer starts with the period of pwm_frequency (R140). That it starts when the show is loaded, and is
absent while the part is LOADING, is the model's choice (log entry 32). -/
def startPwm (s : State) : State :=
  let period := pwmPeriod s.working.params.pwmFrequency
  s.setPwm { s.pwm with timer := some ⟨period, period⟩ }

/-- The load at a start is complete (R191): bank records set, the working show in place, the other blocks set from
it, STARTUP appended (R162). -/
def loadAtStart (s : State) : State :=
  let images : Table (Option (Nat × Show)) 2 := tabulate fun b => checkBank (s.bank b)
  let recs : Table (Option Nat) 2 := tabulate fun b => (Table.at images b).map Prod.fst
  let newest := newestBank recs
  let s := s.setMem { s.mem with recs := recs }
  let s := s.setWorking (startShow recs images)
  let s := startPwm (startFrameTimer s)
  let s := initSlots (restartSilence (sampleInputs s))
  let generation := match newest with
    | some (_, g) => g
    | none => 0
  offer (.startup s.line.lastStart (newest.map Prod.fst) generation) { s with phase := .running }

/-- The line interface after a WARM reset (R188). -/
def LineUnit.warm (now : Time) (l : LineUnit) : LineUnit :=
  { l with rx := .hunt, reply := .idle, silence := .listening, silenceFrom := now, lastStart := .warm,
           pendingReset := none }

/-- A WARM reset takes effect (R29, R34, R84, R116, R128, R133, R148, R163, R188). -/
def warmStart (s : State) : State :=
  let s := s.setFade { FadeEngine.reset with snapshot := s.fade.snapshot }
  let s := s.setPlayer Player.reset
  let s := s.setEditor Editor.reset
  let s := s.setChain s.chain.stop
  let s := s.setComp { s.comp with hostBlackout := false }
  let s := s.setArm { s.arm with inbox := [] }
  let s := s.setLine (s.line.warm s.now)
  let s := initSlots (sampleInputs (startFrameTimer s))
  offer (.startup .warm none 0) s

/-- A pending reset takes effect (R183). -/
def takeReset (m : ResetMode) (s : State) : State :=
  match m with
  | .warm => warmStart s
  | .cold => coldStart .cold .loading s

end Sys2Proof.Machine
end

