-- ==== Sys2Proof/Machine/Line.lean ====
section
/-! DEFINITION. The line interface: the receive assembler, addressing, the reply cache, the group repeat filter, the
reply and the silence (sections 9.1 to 9.5 and 9.9). -/

namespace Sys2Proof.Machine

/-! ## The reply -/

/-- The frame of a reply (R171, R204): its CRC is over the address byte to the last payload byte (R205). -/
def replyFrame (addr seq kind : Byte) (payload : List Byte) : List Byte :=
  let body := [addr, seq, kind, BitVec.ofNat 8 payload.length] ++ payload
  0xD3#8 :: body ++ byte2 (crc16 body).toNat

/-- The payload of a reply: the status byte and the data (R171). -/
def Resp.payload (r : Resp) : List Byte := byte1 r.status.code ++ r.data

/-- The node's own address byte. -/
def State.ownAddr (s : State) : Byte := s.line.nodeAddr.setWidth 8

/-- A reply is built and waits for its start (R171). -/
def queueReply (seq kind : Byte) (payload : List Byte) (s : State) : State :=
  s.setLine { s.line with reply := .waiting (replyFrame s.ownAddr seq kind payload) 0 }

/-- The reply to an executed command is built and replaces the cache, or empties it for SEQ 0 (R171, R173). -/
def answer (seq kind : Byte) (r : Resp) (s : State) : State :=
  let s := queueReply seq kind r.payload s
  s.setLine { s.line with cache := if seq = 0 then none else some ⟨seq, kind, r.payload⟩ }

/-- The cache holds this SEQ and this KIND, SEQ not 0 (R173). -/
def LineUnit.cached (seq kind : Byte) (l : LineUnit) : Option Cached :=
  match l.cache with
  | some c => if seq ≠ 0 ∧ c.seq = seq ∧ c.kind = kind then some c else none
  | none => none

/-! ## Silence -/

/-- A frame is taken: it ends a silence, and restarts the silence timer (R169, R185, R187). -/
def noteTaken (s : State) : State :=
  match s.line.silence with
  | .listening => restartSilence s
  | .silent ms =>
    let seconds := min 65535 (ms / 1000)
    let s := s.setLine { s.line with silence := .listening }
    restartSilence (offer (.silenceEnd seconds) s)

/-- The silence timer has run its full time (R185). -/
def State.silenceDue (s : State) : Bool :=
  let seconds := s.working.params.silenceTime
  decide (1 ≤ seconds ∧ s.line.silence = .listening ∧ since s.now s.line.silenceFrom ≥ seconds * 1000)

/-- The silence action (R186 step 2). -/
def silenceAction (s : State) : State × SilenceTaken :=
  match s.working.params.silenceAction with
  | .hold => (s, .hold)
  | .safe =>
    if s.working.params.safeCue = 0 then (s, .nothing)
    else match goRequest (.goTo s.working.params.safeCue) .silence s with
      | (s, .started _ _) => (s, .safe)
      | (s, .refused _) => (s, .nothing)

/-- The silence timer expires (R186). -/
def expireSilence (s : State) : State :=
  let s := s.setLine { s.line with silence := .silent 0 }
  let (s, taken) := silenceAction s
  offer (.silenceBegin taken) s

/-! ## Taking a frame -/

/-- What an address byte means to this node (R169). -/
inductive Dest where
  | node | group | other
  deriving DecidableEq, Repr

/-- The judgement of the address byte (R167 step 3, R169). -/
def destOf (addr : Byte) (s : State) : Dest :=
  if addr = 0 then .group
  else if 0x40#8 ≤ addr ∧ addr ≤ 0x4F#8 then
    if s.working.params.groupMask.getLsbD (addr.toNat - 0x40) then .group else .other
  else if s.line.nodeAddr ≠ 0 ∧ s.line.nodeAddr ≠ 0x3F#6 ∧ addr = s.ownAddr then .node
  else .other

/-- A frame that passes its CRC and lead checks: what it holds for CHECK (R167). -/
structure FrameIn where
  addr : Byte
  seq : Byte
  kind : Byte
  message : Except Status Message

/-- A node-addressed frame that is taken (R170, R171, R173). -/
def takeNode (f : FrameIn) (s : State) : State :=
  match s.line.cached f.seq f.kind with
  | some c => queueReply f.seq f.kind c.payload s
  | none =>
    match f.message with
    | .error st => answer f.seq f.kind ⟨st, []⟩ s
    | .ok m =>
      let (s, r) := runMessage .node m s
      answer f.seq f.kind r s

/-- The group repeat filter discards the frame (R174). -/
def LineUnit.repeated (seq kind : Byte) (l : LineUnit) : Bool := decide (seq ≠ 0 ∧ l.filter = some (seq, kind))

/-- A group or broadcast frame that is taken (R174, R175). -/
def takeGroup (f : FrameIn) (s : State) : State :=
  if s.line.repeated f.seq f.kind then s
  else
    let s := s.setLine { s.line with filter := if f.seq = 0 then none else some (f.seq, f.kind) }
    if groupPermits f.kind then
      match f.message with
      | .error _ => s
      | .ok m => (runMessage .group m s).1
    else s

/-- A frame from the host with a good CRC is judged by its address, and taken or ignored (R167, R169). -/
def judgeFrame (f : FrameIn) (s : State) : State :=
  match destOf f.addr s with
  | .other => s
  | .node => takeNode f (noteTaken s)
  | .group => takeGroup f (noteTaken s)

/-! ## Characters -/

/-- crc_errors is incremented, up to 65,535 (R168). -/
def countCrcError (s : State) : State := s.setLine { s.line with crcErrors := min 65535 (s.line.crcErrors + 1) }

/-- The frame held is discarded, frame_errors is incremented, and the assembler becomes HUNT (R166, R168). -/
def discardFrame (s : State) : State :=
  s.setLine { s.line with rx := .hunt, frameErrors := min 65535 (s.line.frameErrors + 1) }

/-- The bytes of a frame from its address byte to its last payload byte. -/
def frameBody (bytes : List Byte) : List Byte := (bytes.drop 1).take (bytes.length - 3)

/-- CHECK: CRC, lead, address (R167); the assembler is HUNT. -/
def checkFrame (bytes : List Byte) (s : State) : State :=
  let s := s.setLine { s.line with rx := .hunt }
  let body := frameBody bytes
  if littleEndian (bytes.drop (bytes.length - 2)) ≠ (crc16 body).toNat then countCrcError s
  else match bytes, body with
    | lead :: _, addr :: seq :: kind :: _ :: payload =>
      if lead = 0xD2 then judgeFrame ⟨addr, seq, kind, parseMessage kind payload⟩ s else s
    | _, _ => s

/-- A character taken in HUNT (R166). -/
def huntCharacter (b : Byte) (framing : Bool) (s : State) : State :=
  if !framing && (b == 0xD2 || b == 0xD3) then s.setLine { s.line with rx := .receiving [b] } else s

/-- The gap before a character whose stop bit ends `age` µs after the one before it is above 2 ms (R166): the
character itself lasts 10 bits at the line rate. -/
def gapOver (age rate : Nat) : Bool := decide (2000 * rate + 10000000 < age * rate)

/-- The total length of a frame with the given LEN byte (R166). -/
def frameLength (len : Byte) : Nat := 5 + len.toNat + 2

/-- A character in RECEIVING within the gap (R166). -/
def addCharacter (held : List Byte) (b : Byte) (s : State) : State :=
  let bytes := held ++ [b]
  match bytes with
  | _ :: _ :: _ :: _ :: len :: _ =>
    if 60 < len.toNat then discardFrame s
    else if bytes.length = frameLength len then checkFrame bytes s
    else s.setLine { s.line with rx := .receiving bytes }
  | _ => s.setLine { s.line with rx := .receiving bytes }

/-- The receive assembler takes a character (R166). -/
def assemble (b : Byte) (framing : Bool) (s : State) : State :=
  let age := s.line.rxAge
  let s := s.setLine { s.line with rxAge := 0 }
  match s.line.rx with
  | .hunt => huntCharacter b framing s
  | .receiving held =>
    if gapOver age (rateOf s.line.lineRate) then huntCharacter b framing (discardFrame s)
    else if framing then discardFrame s
    else addCharacter held b s

/-- The state in which the line hears what arrives on RXD: none while the part does not run or drives the line
(R164, R188, R191); a reply not yet begun is abandoned (R172), and `lost` says that a pending reset then took effect
(R183). -/
structure Heard where
  state : State
  lost : Bool

/-- What arrives on RXD meets the reply (R164, R172, R183); none when it is not received. That a part that is loading its
show receives no character, so that none is assembled and no line error counted, is the model's choice (log entry 35). -/
def hear (s : State) : Option Heard :=
  if s.phase ≠ .running then none
  else match s.line.reply with
    | .idle => some ⟨s, false⟩
    | .sending _ _ => none
    | .waiting _ _ =>
      let s := s.setLine { s.line with reply := .idle }
      match s.line.pendingReset with
      | some m => some ⟨takeReset m s, true⟩
      | none => some ⟨s, false⟩

/-- A character arrives on RXD (R164, R166, R172). -/
def receive (b : Byte) (framing : Bool) (s : State) : State :=
  match hear s with
  | none => s
  | some h => if h.lost then h.state else assemble b framing h.state

/-- A whole frame begins in HUNT: a frame still held has stopped short before it, and is discarded and counted
(R166). -/
def dropPartial (s : State) : State :=
  match s.line.rx with
  | .hunt => s
  | .receiving _ => discardFrame s

/-- The state in which the last character of a whole frame has been received, before the frame is judged: the assembler
is in HUNT (R166, R167). -/
def frameEnds (s : State) : State :=
  let s := dropPartial s
  s.setLine { s.line with rxAge := 0 }

/-- A message row: a whole frame of the host, good in length of bytes, lead and CRC, is judged (R167); its
characters met the reply as any character does. Log entry 5. -/
def frameArrives (h : Hdr) (m : Message) (s : State) : State :=
  match hear s with
  | none => s
  | some x =>
    if x.lost then x.state
    else judgeFrame ⟨h.addr, h.seq, kindOf m, lineCheck m⟩ (frameEnds x.state)

/-- The gap has lasted 2 ms with a frame held (R166). -/
def State.gapPassed (s : State) : Bool :=
  match s.line.rx with
  | .receiving _ => decide (2000 ≤ s.line.rxAge)
  | .hunt => false

/-- The reply starts (R171): at the earliest 100 µs after the command. -/
def startReply (s : State) : State :=
  match s.line.reply with
  | .waiting frame age => if 100 ≤ age then s.setLine { s.line with reply := .sending frame 0 } else s
  | .idle => s
  | .sending _ _ => s

/-- The last stop bit of a reply of this many characters has ended, 10 bits a character (R164, R171). -/
def allSent (characters age rate : Nat) : Bool := decide (characters * 10000000 ≤ age * rate)

/-- The reply ends: DE is deasserted, the assembler is in HUNT, a pending reset takes effect (R164, R171, R183). -/
def endReply (s : State) : State :=
  match s.line.reply with
  | .sending frame age =>
    if allSent frame.length age (rateOf s.line.lineRate) then
      let s := s.setLine { s.line with reply := .idle, rx := .hunt }
      match s.line.pendingReset with
      | some m => takeReset m s
      | none => s
    else s
  | .idle => s
  | .waiting _ _ => s

end Sys2Proof.Machine
end

