-- ==== Sys2Proof/Machine/ExecArm.lean ====
section
/-! DEFINITION. The messages of the arm monitor, the report unit and show memory. -/

namespace Sys2Proof.Machine

/-- A frame with ARM arrives (R111, R112). -/
def execArm (h : Hdr) (slot : Byte) (mode : Byte) (condition : List Byte) (action : List Byte) (s : State) :
    Host.Outcome State Fault Refusal :=
  .next (frameArrives h (.arm slot mode condition action) s)

/-- A frame with DISARM arrives (R113). -/
def execDisarm (h : Hdr) (slot : Byte) (s : State) : Host.Outcome State Fault Refusal :=
  .next (frameArrives h (.disarm slot) s)

/-- A frame with READ_ARM arrives (R114). -/
def execReadArm (h : Hdr) (slot : Byte) (s : State) : Host.Outcome State Fault Refusal :=
  .next (frameArrives h (.readArm slot) s)

/-- A frame with POLL arrives (R156, R157). -/
def execPoll (h : Hdr) (ack : Byte) (s : State) : Host.Outcome State Fault Refusal :=
  .next (frameArrives h (.poll ack) s)

/-- A frame with STORE_SHOW arrives (R193). -/
def execStoreShow (h : Hdr) (s : State) : Host.Outcome State Fault Refusal := .next (frameArrives h .storeShow s)

/-- A frame with LOAD_SHOW arrives (R200, R201). -/
def execLoadShow (h : Hdr) (s : State) : Host.Outcome State Fault Refusal := .next (frameArrives h .loadShow s)

/-- A frame with READ_MEMORY arrives (R202). -/
def execReadMemory (h : Hdr) (s : State) : Host.Outcome State Fault Refusal := .next (frameArrives h .readMemory s)

end Sys2Proof.Machine
end

