-- ==== Sys2Proof/Machine/ExecDirect.lean ====
section
/-! DEFINITION. The messages of direct control (R85 to R101). -/

namespace Sys2Proof.Machine

/-- A frame with FADE arrives (R86 to R88). -/
def execFade (h : Hdr) (mask : ChanMask) (target : Half) (time : Word) (curve : Byte) (tag : Byte) (s : State) :
    Host.Outcome State Fault Refusal :=
  .next (frameArrives h (.fade mask target time curve tag) s)

/-- A frame with PARK arrives (R93). -/
def execPark (h : Hdr) (mask : ChanMask) (level : Half) (s : State) : Host.Outcome State Fault Refusal :=
  .next (frameArrives h (.park mask level) s)

/-- A frame with UNPARK arrives (R95). -/
def execUnpark (h : Hdr) (mask : ChanMask) (s : State) : Host.Outcome State Fault Refusal :=
  .next (frameArrives h (.unpark mask) s)

/-- A frame with SET_MASTER arrives (R97). -/
def execSetMaster (h : Hdr) (level : Half) (time : Half) (s : State) : Host.Outcome State Fault Refusal :=
  .next (frameArrives h (.setMaster level time) s)

/-- A frame with SET_BLACKOUT arrives (R99). -/
def execSetBlackout (h : Hdr) (state : Byte) (s : State) : Host.Outcome State Fault Refusal :=
  .next (frameArrives h (.setBlackout state) s)

/-- A frame with READ_CHANNELS arrives (R100, R101). -/
def execReadChannels (h : Hdr) (first : Byte) (count : Byte) (s : State) : Host.Outcome State Fault Refusal :=
  .next (frameArrives h (.readChannels first count) s)

end Sys2Proof.Machine
end

