-- ==== Sys2Proof/Machine/ExecEditor.lean ====
section
/-! DEFINITION. The messages of the cue store and editor (R34 to R50). -/

namespace Sys2Proof.Machine

/-- A frame with EDIT_CURVE arrives (R38). -/
def execEditCurve (h : Hdr) (id : Byte) (count : Byte) (s : State) : Host.Outcome State Fault Refusal :=
  .next (frameArrives h (.editCurve id count) s)

/-- A frame with CURVE_POINTS arrives (R39). -/
def execCurvePoints (h : Hdr) (first : Byte) (points : List RawPoint) (s : State) :
    Host.Outcome State Fault Refusal :=
  .next (frameArrives h (.curvePoints first points) s)

/-- A frame with EDIT_CUE arrives (R35). -/
def execEditCue (h : Hdr) (cue : Half) (s : State) : Host.Outcome State Fault Refusal :=
  .next (frameArrives h (.editCue cue) s)

/-- A frame with CUE_ACTIONS arrives (R36). -/
def execCueActions (h : Hdr) (records : List RawAction) (s : State) : Host.Outcome State Fault Refusal :=
  .next (frameArrives h (.cueActions records) s)

/-- A frame with CUE_FOLLOW arrives (R37). -/
def execCueFollow (h : Hdr) (follow : Word) (s : State) : Host.Outcome State Fault Refusal :=
  .next (frameArrives h (.cueFollow follow) s)

/-- A frame with EDIT_COMMIT arrives (R42 to R45). -/
def execEditCommit (h : Hdr) (s : State) : Host.Outcome State Fault Refusal := .next (frameArrives h .editCommit s)

/-- A frame with EDIT_ABORT arrives (R40). -/
def execEditAbort (h : Hdr) (s : State) : Host.Outcome State Fault Refusal := .next (frameArrives h .editAbort s)

/-- A frame with DELETE_CUE arrives (R46). -/
def execDeleteCue (h : Hdr) (cue : Half) (s : State) : Host.Outcome State Fault Refusal :=
  .next (frameArrives h (.deleteCue cue) s)

/-- A frame with DROP_CURVE arrives (R47). -/
def execDropCurve (h : Hdr) (id : Byte) (s : State) : Host.Outcome State Fault Refusal :=
  .next (frameArrives h (.dropCurve id) s)

/-- A frame with READ_CUE arrives (R48). -/
def execReadCue (h : Hdr) (cue : Half) (first : Byte) (s : State) : Host.Outcome State Fault Refusal :=
  .next (frameArrives h (.readCue cue first) s)

/-- A frame with READ_CURVE arrives (R49). -/
def execReadCurve (h : Hdr) (id : Byte) (first : Byte) (s : State) : Host.Outcome State Fault Refusal :=
  .next (frameArrives h (.readCurve id first) s)

/-- A frame with LIST_CUES arrives (R50). -/
def execListCues (h : Hdr) (after : Half) (s : State) : Host.Outcome State Fault Refusal :=
  .next (frameArrives h (.listCues after) s)

end Sys2Proof.Machine
end

