-- ==== Sys2Proof/Machine/Clock.lean ====
section
/-! DEFINITION. The clock of the part: the frame event, the passing of one microsecond, and the events that are due
(R3, R4, R24, R64, R68, R120, R137, R144, R166, R171, R185, R197). -/

namespace Sys2Proof.Machine

/-- The part runs: it has power, RST# is high and the show is loaded. -/
def State.runs (s : State) : Bool := decide (s.phase = .running)

/-- `f` when the event is due, nothing else. Log entry 4. -/
def onlyIf (due : Bool) (f : State → State) (s : State) : State := if due then f s else s

/-! ## The frame event -/

/-- The frame timer has run out (R4). -/
def State.frameDue (s : State) : Bool := decide (s.clock.frameTimer = some 0)

/-- Steps 1 and 2 of R24: the advances of the channels, then of the master. -/
def frameAdvance (s : State) : State := advanceMaster (advanceChannels s)

/-- Step 3 of R24 and R27: the snapshot is published, and the compositor and the arm monitor take it; before it the arm
monitor takes the CUE_DONEs that R110 and R117 put ahead of it. Log entry 15. -/
def publish (p : Snapshot) (s : State) : State :=
  takeSnapshot p (takeAllAhead (compose p (s.setFade { s.fade with snapshot := some p })))

/-- A frame event: the timer is reloaded (R4), and the fade engine does its work (R24). The CUE_DONEs of its completions
reach the arm monitor before its snapshot (R117). -/
def frameEvent (s : State) : State :=
  let before := s.fade.chans
  let waiting := s.arm.inbox.length
  let s := putAhead waiting (frameAdvance (startFrameTimer s))
  publish (snapshotOf before s.now s.fade) s

/-! ## One microsecond -/

/-- The next microsecond begins a millisecond of engine time (R3). -/
def Clock.rolls (c : Clock) : Bool := decide (999 ≤ c.micro)

/-- Engine time after one microsecond (R3). -/
def Clock.tick (c : Clock) : Clock :=
  if c.rolls then { c with micro := 0, engineTime := c.engineTime + 1 } else { c with micro := c.micro + 1 }

/-- The frame timer after one microsecond (R4). -/
def Clock.count (c : Clock) : Clock := { c with frameTimer := c.frameTimer.map (· - 1) }

/-- The PWM period timer after one microsecond (R137). -/
def PwmUnit.tick (p : PwmUnit) : PwmUnit := { p with timer := p.timer.map fun t => { t with left := t.left - 1 } }

/-- The shift in progress after one microsecond (R143, R145). -/
def Chain.tick (c : Chain) : Chain := if c.shifting then { c with age := c.age + 1 } else c

/-- A reply after one microsecond (R171). -/
def Reply.tick : Reply → Reply
  | .idle => .idle
  | .waiting frame age => .waiting frame (age + 1)
  | .sending frame age => .sending frame (age + 1)

/-- A silence after one microsecond; `rolls` says that it begins a millisecond (R187). -/
def Silence.tick (rolls : Bool) : Silence → Silence
  | .listening => .listening
  | .silent ms => .silent (if rolls then ms + 1 else ms)

/-- The line interface after one microsecond (R166, R171, R187). -/
def LineUnit.tick (rolls : Bool) (l : LineUnit) : LineUnit :=
  { l with
    reply := l.reply.tick
    rxAge := match l.rx with
      | .hunt => l.rxAge
      | .receiving _ => l.rxAge + 1
    silence := l.silence.tick rolls }

/-- The input unit after one microsecond: each line is sampled once in each millisecond (R119). -/
def InputUnit.tick (rolls : Bool) (u : InputUnit) : InputUnit :=
  { u with sampled := if rolls then Vector.replicate 4 false else u.sampled }

/-- One microsecond passes in which no event is due. Log entries 1, 2 and 7. -/
def passMicrosecond (s : State) : State :=
  match s.phase with
  | .off => s
  | .held => s
  | .loading => s.setClock s.clock.tick
  | .running =>
    let rolls := s.clock.rolls
    ((((s.setClock s.clock.tick.count).setPwm s.pwm.tick).setChain s.chain.tick).setLine
      (s.line.tick rolls)).setInputs (s.inputs.tick rolls)

/-! ## The events that are due -/

/-- A command, when it is due. -/
def dueIf (due : Bool) (c : Instr) : List Instr := if due then [c] else []

/-- The debounce expiries of an input: either recipient of a GO-role input's event may be first (R124). -/
def dueDebounce (s : State) (i : Input) : List Instr :=
  if s.debounceDue i then
    if Table.at s.working.params.role i = .go then [.debounceExpiry i false, .debounceExpiry i true]
    else [.debounceExpiry i false]
  else []

/-- The sample of a line that stands at another level than the sample before it (R119). -/
def dueSample (s : State) (i : Input) : List Instr :=
  let level := Table.at s.pins.lines i
  dueIf (s.sampleOpen i && decide (level ≠ Table.at s.inputs.sample i)) (.inputLineChange i level)

/-- A frame that stops short is discarded of itself once no character can still arrive in time. Log entry 19. -/
def State.gapExpired (s : State) : Bool := s.gapPassed && gapOver s.line.rxAge (rateOf s.line.lineRate)

/-- A reply starts of itself at the end of its window (R171). Log entry 20. -/
def State.replyLatest (s : State) : Bool :=
  match s.line.reply with
  | .waiting _ age => decide (1000 ≤ age)
  | .idle => false
  | .sending _ _ => false

/-- The last stop bit of the reply has ended (R171). -/
def State.replySent (s : State) : Bool :=
  match s.line.reply with
  | .sending frame age => allSent frame.length age (rateOf s.line.lineRate)
  | .idle => false
  | .waiting _ _ => false

/-- The events of the part's own timers that are due. The rows that only the outside can cause are not among them. -/
def dueEvents (s : State) : List Instr :=
  if !s.runs then []
  else dueIf s.frameDue .frameEvent
    ++ dueIf (decide (s.arm.inbox ≠ [])) .armCueDoneArrival
    ++ dueIf s.schedDue.isSome .scheduledStartExpiry
    ++ dueIf s.followDue .followExpiry
    ++ dueIf s.editDue .editIdleTimeout
    ++ inputList.flatMap (dueDebounce s)
    ++ inputList.flatMap (dueSample s)
    ++ dueIf s.pwmDue .pwmPeriodBoundary
    ++ dueIf s.chain.shiftDone .chainShiftEnd
    ++ dueIf s.silenceDue .silenceTimerExpiry
    ++ dueIf s.phaseLimitDue.isSome .storePhaseLimit
    ++ dueIf s.gapExpired .frameGapTimeout
    ++ dueIf s.replyLatest .replyStart
    ++ dueIf s.replySent .replyEnd

/-- The event that the part takes next of itself: the only one that is due, or one of several, either of which may be
first. Log entry 3. -/
def nextEvent (s : State) : Option Instr :=
  match dueEvents s with
  | [] => none
  | [c] => some c
  | c :: d :: rest => (c :: d :: rest)[Config.choice s.free % (rest.length + 2)]?

/-- Several events are due, so the choice between them is a free value. -/
def choosing (s : State) : Bool := decide (2 ≤ (dueEvents s).length)

end Sys2Proof.Machine
end

