-- ==== Sys2Proof/Machine/ExecEvents.lean ====
section
/-! DEFINITION. The events of the part's own timers, of the input lines and of the show memory. Each takes effect only while
the part runs and the event is due (log entry 4). -/

namespace Sys2Proof.Machine

/-- The frame timer expires (R4, R24). -/
def execFrameEvent (s : State) : Host.Outcome State Fault Refusal :=
  .next (onlyIf (s.runs && s.frameDue) frameEvent s)

/-- The oldest CUE_DONE offered arrives at the arm monitor (R106, R110). -/
def execArmCueDoneArrival (s : State) : Host.Outcome State Fault Refusal := .next (onlyIf s.runs takeCueDone s)

/-- The first scheduled start is due (R64). -/
def execScheduledStartExpiry (s : State) : Host.Outcome State Fault Refusal :=
  .next (match s.runs, s.schedDue with
    | true, some e => expireSched e s
    | _, _ => s)

/-- The follow timer expires (R68). -/
def execFollowExpiry (s : State) : Host.Outcome State Fault Refusal :=
  .next (onlyIf (s.runs && s.followDue) expireFollow s)

/-- The editor idle timer expires (R41). -/
def execEditIdleTimeout (s : State) : Host.Outcome State Fault Refusal :=
  .next (onlyIf (s.runs && s.editDue) expireEdit s)

/-- An input line goes to this level, and the sample of the running millisecond sees it or not (R119); a part that does
not run samples nothing. Log entry 21. -/
def execInputLineChange (i : Input) (level : Level) (s : State) : Host.Outcome State Fault Refusal :=
  .next (if s.runs then lineGoes i level s else setLevel i level s)

/-- The debounce wait of an input expires (R120 to R125). Log entry 17. -/
def execDebounceExpiry (i : Input) (playerFirst : Bool) (s : State) : Host.Outcome State Fault Refusal :=
  .next (onlyIf (s.runs && s.debounceDue i) (expireDebounce i playerFirst) s)

/-- A PWM period ends and the next begins (R137, R138). -/
def execPwmPeriodBoundary (s : State) : Host.Outcome State Fault Refusal :=
  .next (onlyIf (s.runs && s.pwmDue) pwmBoundary s)

/-- The shift in progress ends (R144). -/
def execChainShiftEnd (s : State) : Host.Outcome State Fault Refusal :=
  .next (onlyIf (s.runs && s.chain.shiftDone) (fun s => s.setChain s.chain.finish) s)

/-- The silence timer expires (R186). -/
def execSilenceTimerExpiry (s : State) : Host.Outcome State Fault Refusal :=
  .next (onlyIf (s.runs && s.silenceDue) expireSilence s)

/-- The memory reports the end of the erase (R194). Log entry 18. -/
def execEraseEnd (complete : Bool) (s : State) : Host.Outcome State Fault Refusal :=
  .next (match s.runs, s.storeIn .erasing with
    | true, some r => eraseEnds complete r s
    | _, _ => s)

/-- The memory reports the last of the writes (R195). Log entry 18. -/
def execProgrammingEnd (taken : Bool) (s : State) : Host.Outcome State Fault Refusal :=
  .next (match s.runs, s.storeIn .programming with
    | true, some r => programmingEnds taken r s
    | _, _ => s)

/-- The read-back and the magic write end (R196). Log entry 18. -/
def execVerifyEnd (same : Bool) (magicRead : Bool) (s : State) : Host.Outcome State Fault Refusal :=
  .next (match s.runs, s.storeIn .verifying with
    | true, some r => verifyEnds same magicRead r s
    | _, _ => s)

/-- The phase in progress has not ended by its limit (R197). -/
def execStorePhaseLimit (s : State) : Host.Outcome State Fault Refusal :=
  .next (match s.runs, s.phaseLimitDue with
    | true, some r => failStore r s
    | _, _ => s)

end Sys2Proof.Machine
end

