-- ==== Sys2Proof/Machine/ExecNode.lean ====
section
/-! DEFINITION. The messages of the node as a whole and of the patch table: IDENTIFY to RESET. A message row is a whole frame
of the host; `frameArrives` hands it to the operation of its name in `runMessage`. -/

namespace Sys2Proof.Machine

/-- A frame with IDENTIFY arrives (R177). -/
def execIdentify (h : Hdr) (s : State) : Host.Outcome State Fault Refusal := .next (frameArrives h .identify s)

/-- A frame with READ_STATUS arrives (R178). -/
def execReadStatus (h : Hdr) (s : State) : Host.Outcome State Fault Refusal := .next (frameArrives h .readStatus s)

/-- A frame with CONFIGURE arrives (R179 to R181). -/
def execConfigure (h : Hdr) (pairs : List RawPair) (s : State) : Host.Outcome State Fault Refusal :=
  .next (frameArrives h (.configure pairs) s)

/-- A frame with READ_CONFIG arrives (R182). -/
def execReadConfig (h : Hdr) (first : Byte) (count : Byte) (s : State) : Host.Outcome State Fault Refusal :=
  .next (frameArrives h (.readConfig first count) s)

/-- A frame with PATCH arrives (R131). -/
def execPatch (h : Hdr) (first : Byte) (records : List RawOutput) (s : State) : Host.Outcome State Fault Refusal :=
  .next (frameArrives h (.patch first records) s)

/-- A frame with READ_PATCH arrives (R132). -/
def execReadPatch (h : Hdr) (first : Byte) (count : Byte) (s : State) : Host.Outcome State Fault Refusal :=
  .next (frameArrives h (.readPatch first count) s)

/-- A frame with RESET arrives (R183, R184). -/
def execReset (h : Hdr) (mode : Byte) (s : State) : Host.Outcome State Fault Refusal :=
  .next (frameArrives h (.reset mode) s)

end Sys2Proof.Machine
end

