-- ==== Sys2Proof/Machine/ExecPlayer.lean ====
section
/-! DEFINITION. The messages of the player (R55 to R83). -/

namespace Sys2Proof.Machine

/-- A frame with GO arrives (R56, R59). -/
def execGo (h : Hdr) (s : State) : Host.Outcome State Fault Refusal := .next (frameArrives h .go s)

/-- A frame with GO_TO arrives (R57, R59). -/
def execGoTo (h : Hdr) (cue : Half) (s : State) : Host.Outcome State Fault Refusal :=
  .next (frameArrives h (.goTo cue) s)

/-- A frame with BACK arrives (R58, R59). -/
def execBack (h : Hdr) (s : State) : Host.Outcome State Fault Refusal := .next (frameArrives h .back s)

/-- A frame with PAUSE arrives (R73). -/
def execPause (h : Hdr) (s : State) : Host.Outcome State Fault Refusal := .next (frameArrives h .pause s)

/-- A frame with RESUME arrives (R75). -/
def execResume (h : Hdr) (s : State) : Host.Outcome State Fault Refusal := .next (frameArrives h .resume s)

/-- A frame with RELEASE arrives (R76). -/
def execRelease (h : Hdr) (time : Half) (s : State) : Host.Outcome State Fault Refusal :=
  .next (frameArrives h (.release time) s)

/-- A frame with READ_PLAYER arrives (R82, R83). -/
def execReadPlayer (h : Hdr) (part : Byte) (first : Byte) (s : State) : Host.Outcome State Fault Refusal :=
  .next (frameArrives h (.readPlayer part first) s)

end Sys2Proof.Machine
end

