-- ==== Sys2Proof/Machine/ExecPower.lean ====
section
/-! DEFINITION. Power, reset and the characters of the line (R164, R166, R171, R188, R191, R199). -/

namespace Sys2Proof.Machine

/-- Power is applied with these straps (R188). Log entries 6 and 7. -/
def execPowerOn (addr : BitVec 6) (rate : BitVec 2) (s : State) : Host.Outcome State Fault Refusal :=
  .next (applyPower addr rate s)

/-- RST# goes low with these straps (R188). -/
def execRstPinLow (addr : BitVec 6) (rate : BitVec 2) (s : State) : Host.Outcome State Fault Refusal :=
  .next (pullReset addr rate s)

/-- RST# returns high (R188). -/
def execRstPinHigh (s : State) : Host.Outcome State Fault Refusal := .next (releaseReset s)

/-- Power is lost (R199). -/
def execPowerLoss (s : State) : Host.Outcome State Fault Refusal := .next (losePower s)

/-- Both banks have been read and checked at a start (R191). -/
def execStartUpLoad (s : State) : Host.Outcome State Fault Refusal :=
  .next (onlyIf (decide (s.phase = .loading)) loadAtStart s)

/-- A character arrives on RXD (R166, R172). -/
def execReceiveCharacter (byte : Byte) (framing : Bool) (s : State) : Host.Outcome State Fault Refusal :=
  .next (receive byte framing s)

/-- 2 ms have passed since the last character of a frame that stops short (R166). -/
def execFrameGapTimeout (s : State) : Host.Outcome State Fault Refusal :=
  .next (onlyIf (s.runs && s.gapPassed) discardFrame s)

/-- The reply that was built starts on the line (R171). -/
def execReplyStart (s : State) : Host.Outcome State Fault Refusal := .next (onlyIf s.runs startReply s)

/-- The last stop bit of the reply ends (R171, R183). -/
def execReplyEnd (s : State) : Host.Outcome State Fault Refusal := .next (onlyIf s.runs endReply s)

end Sys2Proof.Machine
end

