-- ==== Sys2Proof/Machine/Dispatch.lean ====
section
/-! DEFINITION. The dispatch: one arm for each command. -/

namespace Sys2Proof.Machine

/-- The effect of a command on everything but the queue. -/
def exec (i : Instr) (s : State) : Host.Outcome State Fault Refusal :=
  match i with
  | .powerOn addr rate => Sys2Proof.Machine.execPowerOn addr rate s
  | .rstPinLow addr rate => Sys2Proof.Machine.execRstPinLow addr rate s
  | .powerLoss => Sys2Proof.Machine.execPowerLoss s
  | .startUpLoad => Sys2Proof.Machine.execStartUpLoad s
  | .receiveCharacter byte framing => Sys2Proof.Machine.execReceiveCharacter byte framing s
  | .frameGapTimeout => Sys2Proof.Machine.execFrameGapTimeout s
  | .replyStart => Sys2Proof.Machine.execReplyStart s
  | .replyEnd => Sys2Proof.Machine.execReplyEnd s
  | .identify h => Sys2Proof.Machine.execIdentify h s
  | .readStatus h => Sys2Proof.Machine.execReadStatus h s
  | .configure h pairs => Sys2Proof.Machine.execConfigure h pairs s
  | .readConfig h first count => Sys2Proof.Machine.execReadConfig h first count s
  | .patch h first records => Sys2Proof.Machine.execPatch h first records s
  | .readPatch h first count => Sys2Proof.Machine.execReadPatch h first count s
  | .reset h mode => Sys2Proof.Machine.execReset h mode s
  | .editCurve h id count => Sys2Proof.Machine.execEditCurve h id count s
  | .curvePoints h first points => Sys2Proof.Machine.execCurvePoints h first points s
  | .editCue h cue => Sys2Proof.Machine.execEditCue h cue s
  | .cueActions h records => Sys2Proof.Machine.execCueActions h records s
  | .cueFollow h follow => Sys2Proof.Machine.execCueFollow h follow s
  | .editCommit h => Sys2Proof.Machine.execEditCommit h s
  | .editAbort h => Sys2Proof.Machine.execEditAbort h s
  | .deleteCue h cue => Sys2Proof.Machine.execDeleteCue h cue s
  | .dropCurve h id => Sys2Proof.Machine.execDropCurve h id s
  | .readCue h cue first => Sys2Proof.Machine.execReadCue h cue first s
  | .readCurve h id first => Sys2Proof.Machine.execReadCurve h id first s
  | .listCues h after => Sys2Proof.Machine.execListCues h after s
  | .go h => Sys2Proof.Machine.execGo h s
  | .goTo h cue => Sys2Proof.Machine.execGoTo h cue s
  | .back h => Sys2Proof.Machine.execBack h s
  | .pause h => Sys2Proof.Machine.execPause h s
  | .resume h => Sys2Proof.Machine.execResume h s
  | .release h time => Sys2Proof.Machine.execRelease h time s
  | .readPlayer h part first => Sys2Proof.Machine.execReadPlayer h part first s
  | .fade h mask target time curve tag => Sys2Proof.Machine.execFade h mask target time curve tag s
  | .park h mask level => Sys2Proof.Machine.execPark h mask level s
  | .unpark h mask => Sys2Proof.Machine.execUnpark h mask s
  | .setMaster h level time => Sys2Proof.Machine.execSetMaster h level time s
  | .setBlackout h state => Sys2Proof.Machine.execSetBlackout h state s
  | .readChannels h first count => Sys2Proof.Machine.execReadChannels h first count s
  | .arm h slot mode condition action => Sys2Proof.Machine.execArm h slot mode condition action s
  | .disarm h slot => Sys2Proof.Machine.execDisarm h slot s
  | .readArm h slot => Sys2Proof.Machine.execReadArm h slot s
  | .poll h ack => Sys2Proof.Machine.execPoll h ack s
  | .storeShow h => Sys2Proof.Machine.execStoreShow h s
  | .loadShow h => Sys2Proof.Machine.execLoadShow h s
  | .readMemory h => Sys2Proof.Machine.execReadMemory h s
  | .frameEvent => Sys2Proof.Machine.execFrameEvent s
  | .armCueDoneArrival => Sys2Proof.Machine.execArmCueDoneArrival s
  | .scheduledStartExpiry => Sys2Proof.Machine.execScheduledStartExpiry s
  | .followExpiry => Sys2Proof.Machine.execFollowExpiry s
  | .editIdleTimeout => Sys2Proof.Machine.execEditIdleTimeout s
  | .inputLineChange input level => Sys2Proof.Machine.execInputLineChange input level s
  | .debounceExpiry input playerFirst => Sys2Proof.Machine.execDebounceExpiry input playerFirst s
  | .pwmPeriodBoundary => Sys2Proof.Machine.execPwmPeriodBoundary s
  | .chainShiftEnd => Sys2Proof.Machine.execChainShiftEnd s
  | .silenceTimerExpiry => Sys2Proof.Machine.execSilenceTimerExpiry s
  | .eraseEnd complete => Sys2Proof.Machine.execEraseEnd complete s
  | .programmingEnd taken => Sys2Proof.Machine.execProgrammingEnd taken s
  | .verifyEnd same magicRead => Sys2Proof.Machine.execVerifyEnd same magicRead s
  | .storePhaseLimit => Sys2Proof.Machine.execStorePhaseLimit s
  | .rstPinHigh => Sys2Proof.Machine.execRstPinHigh s

end Sys2Proof.Machine
end

