-- ==== Sys2Proof/Machine/Step.lean ====
section
/-! DEFINITION. One step: the command at the front of the queue, or what the part does of itself. -/

namespace Sys2Proof.Machine

/-- The state with this queue. -/
def State.withPending (cs : List Instr) (s : State) : State := { s with pending := cs }

/-- What the part does of itself when no command waits: an event that is due, or else one microsecond passes. Log
entries 1 and 3. -/
def idle (s : State) : Host.Outcome State Fault Refusal :=
  match nextEvent s with
  | some c => exec c (if choosing s then s.tookFree else s)
  | none => .next (passMicrosecond s)

/-- One step: the command at the front of the queue is run with the rest of the queue. -/
def step (s : State) : Host.Outcome State Fault Refusal :=
  match s.pending with
  | c :: rest => exec c (s.withPending rest)
  | [] => idle s

/-- The state with the command that a word spells put at the front of the queue; the table gives no row bits, so no
word spells one. -/
def State.withFetchWord (s : State) (nbits w : Nat) : State :=
  match decodeTableWord nbits w with
  | some c => s.withPending (c :: s.pending)
  | none => s

end Sys2Proof.Machine
end

