-- ==== Sys2Proof/Safety.lean ====
section
/-! DEFINITION. What counts as a sound state of the part, block by block, and the words that the statements about
commands use. -/

namespace Sys2Proof.Machine

/-! ## Laws of the state -/

/-- R1: a parked channel stands at its park level, holds no fade context, and no scheduled start names it. -/
def ParkLaw (s : State) : Prop :=
  ∀ c : Chan, ∀ l : Nat, (s.chan c).park = some l →
    (s.chan c).level = l ∧ (s.chan c).fade = none ∧ ∀ e ∈ s.player.sched, e.channel ≠ c

/-- R6, R54: only a CUE-owned context is frozen, and the frozen contexts are those of a PAUSED player. -/
def FreezeLaw (s : State) : Prop :=
  ∀ c : Chan, ∀ f : Fade, (s.chan c).fade = some f →
    (f.frozen = true ↔ s.player.state = .paused ∧ ∃ n, f.owner = .cue n)

/-- R62, R63: at most one scheduled start for each channel, in ascending order of the time left; of a player that is not
PAUSED none is overdue. -/
def SchedLaw (s : State) : Prop :=
  (s.player.sched.map (·.channel)).Nodup
    ∧ if s.player.state = .paused then s.player.sched.Pairwise fun a b => a.left.remaining ≤ b.left.remaining
      else (∀ e ∈ s.player.sched, since s.now e.left.lastAdvance ≤ e.left.remaining)
        ∧ s.player.sched.Pairwise fun a b => a.left.leftAt s.now ≤ b.left.leftAt s.now

/-- R69: every live entry counts, from 1, what its cue owns, no cue has two entries, and every cue that owns anything
has one. -/
def LiveLaw (s : State) : Prop :=
  (s.player.live.map (·.cue)).Nodup
    ∧ (∀ e ∈ s.player.live, 1 ≤ e.count ∧ e.count = s.owned e.cue)
    ∧ ∀ n, 1 ≤ s.owned n → ∃ e ∈ s.player.live, e.cue = n

/-- R89: every batch record counts, from 1, the contexts that carry its tag, and every nonzero tag that a context
carries has one record. -/
def TagLaw (s : State) : Prop :=
  (s.fade.tags.map (·.tag)).Nodup
    ∧ (∀ b ∈ s.fade.tags, b.tag ≠ 0 ∧ 1 ≤ b.count ∧ b.count = s.fade.tagged b.tag)
    ∧ ∀ t, t ≠ 0 → 1 ≤ s.fade.tagged t → ∃ b ∈ s.fade.tags, b.tag = t

/-- R53: the position is 0 exactly when the player is STOPPED, and resume_to is none when it is not PAUSED. -/
def PositionLaw (s : State) : Prop :=
  (s.player.position = 0 ↔ s.player.state = .stopped) ∧ (s.player.resumeTo.isSome ↔ s.player.state = .paused)

/-- R54: what each state of the player says of its collections. -/
def PlayerLaw (s : State) : Prop :=
  match s.player.state with
  | .stopped => s.player.sched = [] ∧ s.player.live = [] ∧ s.player.follow = none
  | .running => s.player.live ≠ [] ∨ s.player.follow ≠ none
  | .waiting => s.player.sched = [] ∧ s.player.live = [] ∧ s.player.follow = none
  | .paused => True

/-- Every record's sequence is followed by that of the record behind it, and the last one's by `next` (R152). -/
def sequencesFrom (next : Nat) : List Record → Prop
  | [] => True
  | [r] => nextSequence r.sequence = next
  | r :: q :: rest => nextSequence r.sequence = q.sequence ∧ sequencesFrom next (q :: rest)

/-- R151, R152, R154, R155, R157: at most 32 records, numbered 1 to 255 one after another up to the next report
sequence, none sent but the head, at most one of them an unsent INPUT_CHANGE, and a lost count up to 255. -/
def ReportLaw (u : ReportUnit) : Prop :=
  u.queue.length ≤ 32 ∧ u.lost ≤ 255 ∧ (1 ≤ u.nextSeq ∧ u.nextSeq ≤ 255)
    ∧ (∀ r ∈ u.queue, 1 ≤ r.sequence ∧ r.sequence ≤ 255)
    ∧ sequencesFrom u.nextSeq u.queue
    ∧ (∀ r ∈ u.queue.tail, r.sent = false)
    ∧ u.queue.countP Record.mergeable ≤ 1

/-- R179, R180: every parameter holds a value that CONFIGURE allows. -/
def ParamsLaw (p : Params) : Prop := ∀ id, 1 ≤ id → id ≤ 23 → paramOk id (p.value id) = true

/-- R129: the fields of an output record lie in their ranges. -/
def PatchLaw (w : Show) : Prop :=
  ∀ o : Fin 40, (Table.at w.patch o).threshold ≤ 4095 ∧ (Table.at w.patch o).min ≤ 4095

/-- R30: the fields of an action record lie in their ranges. -/
def Action.inRange (a : Action) : Prop := a.target ≤ 4095 ∧ a.time ≤ 600000 ∧ a.delay ≤ 60000 ∧ a.curve ≤ 15

/-- R30, R31, R32: at most 64 cues in strictly ascending order of number, each of 1 to 9999 and with a follow of at
most 600,000, each with at least one action, one a channel at most and in ascending channel order, and at most 384
actions together. -/
def CueListLaw (w : Show) : Prop :=
  w.cues.length ≤ 64 ∧ w.actionsUsed ≤ 384 ∧ (w.cues.map (·.number)).Pairwise (· < ·)
    ∧ ∀ q ∈ w.cues, 1 ≤ q.number ∧ q.number ≤ 9999 ∧ (∀ t, q.follow = some t → t ≤ 600000) ∧ q.actions ≠ []
      ∧ (q.actions.map (·.channel)).Pairwise (· < ·) ∧ ∀ a ∈ q.actions, a.inRange

/-- R10 to R12: every defined user curve has a point list of its shape, and the point pool is not overdrawn. -/
def CurveLaw (w : Show) : Prop :=
  w.pointsUsed ≤ 240 ∧ ∀ k : Fin 15, ∀ pts, Table.at w.curves k = some pts → shapeOk pts = true

/-- Section 5.2: the parameters of a condition lie in their ranges. -/
def Condition.inRange : Condition → Prop
  | .inputEdge _ _ => True
  | .levelCross _ threshold _ => 1 ≤ threshold ∧ threshold ≤ 4095
  | .fadeProgress _ value => 1 ≤ value ∧ value ≤ 1000
  | .cueComplete n => 1 ≤ n ∧ n ≤ 9999

/-- R107: the parameters of an action lie in their ranges. -/
def ArmAction.inRange : ArmAction → Prop
  | .goTo n => 1 ≤ n ∧ n ≤ 9999
  | .release time => time ≤ 60000
  | .fade mask target time curve => mask ≠ 0 ∧ target ≤ 4095 ∧ time ≤ 600000 ∧ curve ≤ 15
  | .setMaster level time => level ≤ 1000 ∧ time ≤ 60000
  | .go => True
  | .back => True
  | .pause => True
  | .resume => True

/-- R102, R107: every ARMED slot holds a condition and an action in range. -/
def ArmLaw (w : Show) : Prop :=
  ∀ k : Fin 8, ∀ d, Table.at w.arms k = some d → d.condition.inRange ∧ d.action.inRange

/-- R34: a cue buffer is in channel order, for a cue 1 to 9999; a curve buffer has 2 to 32 places of a curve 1 to
15. -/
def SessionLaw (e : Editor) : Prop :=
  match e.session with
  | .idle => True
  | .cue n follow actions =>
    1 ≤ n ∧ n ≤ 9999 ∧ (∀ t, follow = some t → t ≤ 600000) ∧ (actions.map (·.channel)).Pairwise (· < ·)
      ∧ ∀ a ∈ actions, a.inRange
  | .curve id places => 1 ≤ id ∧ id ≤ 15 ∧ 2 ≤ places.length ∧ places.length ≤ 32

/-- R13: every fade context, every scheduled start and every action of every cue names a defined curve. -/
def CurvesDefined (s : State) : Prop :=
  (∀ c : Chan, ∀ f : Fade, (s.chan c).fade = some f → (s.working.curve f.curve).isSome)
    ∧ (∀ e ∈ s.player.sched, (s.working.curve e.curve).isSome)
    ∧ ∀ q ∈ s.working.cues, ∀ a ∈ q.actions, (s.working.curve a.curve).isSome

/-- The number of chain buffers of a role. -/
def Chain.count (r : BufRole) (c : Chain) : Nat := (Table.entries c.bufs).countP (·.role == r)

/-- R141: at most one chain buffer is SHIFTING and at most one is READY; R143: one is READY only while one is
SHIFTING. -/
def ChainLaw (c : Chain) : Prop :=
  c.count .shifting ≤ 1 ∧ c.count .ready ≤ 1 ∧ (1 ≤ c.count .ready → c.count .shifting = 1)

/-- R125: the line blackout flag of a running part is set while at least one BLACKOUT input is active. -/
def BlackoutLaw (s : State) : Prop := s.phase = .running → s.comp.lineBlackout = s.blackoutCondition

/-- R118, R119: an input has a debounce wait exactly while its line was last sampled at the level opposite to the
debounced level. -/
def InputLaw (u : InputUnit) : Prop :=
  ∀ i : Input, Table.at u.wait i = none ↔ Table.at u.sample i = Table.at u.level i

/-- R147, R168: the counters stay at 65,535 once they are there. -/
def CounterLaw (s : State) : Prop :=
  s.chain.skips ≤ 65535 ∧ s.line.crcErrors ≤ 65535 ∧ s.line.frameErrors ≤ 65535

/-- The banks and the staging area stand in canonical form. -/
def MemoryLaw (m : ShowMemory) : Prop := (∀ b : Bank, Memory.wf (Table.at m.banks b)) ∧ Memory.wf m.staging

/-- R193, R199: while a store is in progress its target's record is invalid and its magic does not match. -/
def StoreLaw (m : ShowMemory) : Prop :=
  ∀ r, m.store = some r →
    Table.at m.recs r.target = none ∧ littleEndian (readBytes (Table.at m.banks r.target) 0 4) ≠ magic

/-- R1, R6, R17, R62, R96, R134: the levels, the ends and durations of the fades, the targets, times and countdowns of
the scheduled starts, the master with its fade, and the composed values lie in their ranges. -/
def LevelLaw (s : State) : Prop :=
  (∀ c : Chan, (s.chan c).level ≤ 4095)
    ∧ (∀ c : Chan, ∀ f : Fade, (s.chan c).fade = some f →
        f.start ≤ 4095 ∧ f.target ≤ 4095 ∧ 1 ≤ f.duration ∧ f.duration ≤ 600000)
    ∧ (∀ e ∈ s.player.sched, e.target ≤ 4095 ∧ e.time ≤ 600000 ∧ e.left.remaining ≤ 60000)
    ∧ s.fade.master ≤ 1000
    ∧ (∀ m, s.fade.masterCtx = some m → m.start ≤ 1000 ∧ m.target ≤ 1000 ∧ 1 ≤ m.duration ∧ m.duration ≤ 60000)
    ∧ ∀ o : Fin 40, Table.at s.comp.composed o ≤ 4095

/-- R188, R191: no frame is taken, no fade runs and no store runs in a part that does not run. -/
def AtRestLaw (s : State) : Prop :=
  s.phase ≠ .running →
    s.fade = FadeEngine.reset ∧ s.player = Player.reset ∧ s.editor.session = .idle ∧ s.report = ReportUnit.reset
      ∧ s.arm.inbox = [] ∧ s.line.reply = .idle ∧ s.line.rx = .hunt ∧ s.mem.store = none

/-- A sound state: every law together. -/
structure Sound (s : State) : Prop where
  park : ParkLaw s
  freeze : FreezeLaw s
  sched : SchedLaw s
  live : LiveLaw s
  tags : TagLaw s
  position : PositionLaw s
  player : PlayerLaw s
  report : ReportLaw s.report
  params : ParamsLaw s.working.params
  patch : PatchLaw s.working
  cues : CueListLaw s.working
  curves : CurveLaw s.working
  arms : ArmLaw s.working
  session : SessionLaw s.editor
  defined : CurvesDefined s
  chain : ChainLaw s.chain
  blackout : BlackoutLaw s
  inputs : InputLaw s.inputs
  counters : CounterLaw s
  memory : MemoryLaw s.mem
  store : StoreLaw s.mem
  levels : LevelLaw s
  atRest : AtRestLaw s

/-! ## Taking a frame -/

/-- The part runs and neither owes nor sends a reply: it hears what arrives on RXD (R164, R172, R188). -/
abbrev Listens (s : State) : Prop := s.phase = .running ∧ s.line.reply = .idle

/-- The address byte is the node's own address, 01H to 3EH (R169). -/
abbrev NamesNode (addr : Byte) (s : State) : Prop :=
  1 ≤ s.line.nodeAddr.toNat ∧ s.line.nodeAddr.toNat ≤ 62 ∧ addr.toNat = s.line.nodeAddr.toNat

/-- The address byte is broadcast, or that of a group whose member in group_mask is set (R169). -/
abbrev NamesGroup (addr : Byte) (s : State) : Prop :=
  addr = 0 ∨ ∃ g : Fin 16, addr.toNat = 64 + g.val ∧ s.working.params.groupMask.getLsbD g.val = true

/-- A node-addressed frame with this header and kind is taken, and the reply cache does not answer it (R170, R173). -/
abbrev TakesNew (h : Hdr) (kind : Byte) (s : State) : Prop :=
  Listens s ∧ NamesNode h.addr s ∧ s.line.cached h.seq kind = none

/-- A group or broadcast frame with this header and kind is taken, and the group repeat filter lets it pass (R174). -/
abbrev TakesGroup (h : Hdr) (kind : Byte) (s : State) : Prop :=
  Listens s ∧ NamesGroup h.addr s ∧ s.line.repeated h.seq kind = false

/-- frame_errors after a whole frame: a frame still held had stopped short before it and is counted, up to 65,535 (R166,
R168). -/
def LineUnit.errorsAfter (l : LineUnit) : Nat :=
  match l.rx with
  | .hunt => l.frameErrors
  | .receiving _ => min 65535 (l.frameErrors + 1)

/-- The command payload lengths of the kinds; a kind without any names no message (R206, R208). -/
def payloadLengths (kind : Byte) : List Nat :=
  match kind.toNat with
  | 0x01 | 0x02 | 0x15 | 0x16 | 0x20 | 0x22 | 0x23 | 0x24 | 0x3D | 0x3E | 0x3F => [0]
  | 0x0F | 0x18 | 0x34 | 0x39 | 0x3A | 0x3C => [1]
  | 0x04 | 0x06 | 0x10 | 0x12 | 0x17 | 0x1A | 0x1B | 0x21 | 0x25 | 0x26 | 0x35 => [2]
  | 0x19 | 0x32 => [3]
  | 0x14 | 0x33 => [4]
  | 0x31 => [5]
  | 0x30 => [11]
  | 0x38 => [18]
  | 0x03 => (List.range 10).map fun k => 5 * (k + 1)
  | 0x05 => (List.range 8).map fun k => 1 + 6 * (k + 1)
  | 0x11 => (List.range 12).map fun k => 1 + 4 * (k + 1)
  | 0x13 => (List.range 4).map fun k => 10 * (k + 1)
  | _ => []

/-- The state in which the owning block takes the message of a frame: the assembler is in HUNT, a frame that had stopped
short before it is counted, and the frame has restarted the silence timer and ended a silence (R166, R167, R169). -/
def State.taken (s : State) : State := noteTaken (frameEnds s)

/-- The state in which the owning block takes the message of a group or broadcast frame: the filter holds its SEQ and
KIND, or nothing for SEQ 0 (R174). -/
def State.filtered (h : Hdr) (kind : Byte) (s : State) : State :=
  s.taken.setLine { s.taken.line with filter := if h.seq = 0 then none else some (h.seq, kind) }

/-- The command leads to `t` with a reply of this status and data, built and cached (R171, R173). -/
def Answers (c : Instr) (h : Hdr) (kind : Byte) (s t : State) (st : Status) (data : List Byte) : Prop :=
  exec c s = .next (answer h.seq kind ⟨st, data⟩ t)

/-- The command is answered with this status alone and changes nothing else (R171). -/
def Refuses (c : Instr) (h : Hdr) (kind : Byte) (s : State) (st : Status) : Prop :=
  Answers c h kind s s.taken st []

/-- Nothing but the fade engine, the player, the report unit and the CUE_DONEs at the arm monitor differs. -/
def OnlyPlayback (s t : State) : Prop :=
  t = { s with fade := t.fade, player := t.player, report := t.report, arm := { s.arm with inbox := t.arm.inbox } }

/-- Nothing but the fade engine, the player, the report unit, the arm monitor and the arming table differs. -/
def OnlyArmed (s t : State) : Prop :=
  t = { s with fade := t.fade, player := t.player, report := t.report, arm := t.arm,
               working := { s.working with arms := t.working.arms } }

/-- The bank `n` is the bank `m` in which PROGRAMMING was stopped (R195, R197, R199): image, CRC and header are written in
this order, the one reached is open, those after it stand as before, and so do the magic and what lies past the CRC. -/
def PartlyProgrammed (staging m n : Memory) : Prop :=
  let length := littleEndian (readBytes staging 8 2)
  let kept (a : Nat) : Prop := readByte n a = readByte m a
  (∀ a, a < 4 ∨ 14 + length ≤ a → kept a)
    ∧ ((∀ a, a < 10 ∨ 10 + length ≤ a → kept a)
      ∨ (readBytes n 10 length = readBytes staging 10 length ∧ ∀ a, a < 10 → kept a)
      ∨ readBytes n 10 (length + 4) = readBytes staging 10 (length + 4))

/-! ## Reports, the choice of a cue, and firing -/

/-- `t` has taken these offers after `s`: the report unit each of them, and the arm monitor every CUE_DONE among them
(R72, R106, R151). -/
def Offers (l : List Report) (s t : State) : Prop :=
  t.report = l.foldl (fun u d => u.offer s.working.params.reportEnable s.now d) s.report
    ∧ t.arm.inbox = s.arm.inbox ++ l.filterMap fun d => match d with
      | .cueDone n _ => some ⟨n, false⟩
      | _ => none

/-- The reports of what ended between `s` and `t`, each once: CUE_DONE for every cue that is live in `s` and no longer in
`t`, and DIRECT_DONE for every tag that is outstanding in `s` and no longer in `t`, but for what is held; `how` says how
it ended, given its cut flag (R60, R72, R90). -/
def EndsReported (hold : Hold) (how : Bool → How) (l : List Report) (s t : State) : Prop :=
  l.Nodup
    ∧ (∀ d ∈ l, (∃ n w, d = .cueDone n w) ∨ ∃ g w, d = .directDone g w)
    ∧ (∀ n w, .cueDone n w ∈ l ↔ hold.cue ≠ some n
        ∧ (∃ e ∈ s.player.live, e.cue = n ∧ w = how e.cut) ∧ ∀ e ∈ t.player.live, e.cue ≠ n)
    ∧ ∀ g w, .directDone g w ∈ l ↔ hold.tag ≠ some g
        ∧ (∃ b ∈ s.fade.tags, b.tag = g ∧ w = how b.cut) ∧ ∀ b ∈ t.fade.tags, b.tag ≠ g

/-- What a takeover, a park or a removal ends is cut (R22, R66). -/
abbrev allCut : Bool → How := fun _ => .cut

/-- What completes, and an item set at once, leaves the cut flag as it stands (R71, R79). -/
abbrev byFlag : Bool → How := fun cut => if cut then .cut else .completed

/-- GO takes the smallest number above the position, GO_TO its cue, BACK the largest below (R56, R57, R58). -/
def Chosen (k : GoKind) (q : Cue) (s : State) : Prop :=
  match k with
  | .go => s.player.position < q.number ∧ ∀ x ∈ s.working.cues, s.player.position < x.number → q.number ≤ x.number
  | .goTo n => n = q.number
  | .back => q.number < s.player.position ∧ ∀ x ∈ s.working.cues, x.number < s.player.position → x.number ≤ q.number

/-- The actions of a cue that a GO skips: those on parked channels (R59 step 2). -/
def State.skipped (q : Cue) (s : State) : Nat := q.actions.countP fun a => decide ((s.chan a.channel).park ≠ none)

/-- The reports of a GO operation (R59 step 7, R60, R72, R78, R79): what it ended by takeover, then CUE_STARTED with its
source unless that is HOST, then CUE_DONE if the cue owns nothing. -/
def GoReports (q : Cue) (source : Source) (s t : State) : Prop :=
  ∃ (ended : List Report) (how : How),
    EndsReported ⟨some q.number, none⟩ allCut ended s t
    ∧ (LiveLaw s → how = if ∃ e ∈ s.player.live, e.cue = q.number then .cut else .completed)
    ∧ Offers (ended ++ (if source = .host then [] else [.cueStarted q.number (s.skipped q) source])
        ++ (if ∃ e ∈ t.player.live, e.cue = q.number then [] else [.cueDone q.number how])) s t

/-- The time with which a GO operation runs an action: its own, and for BACK back_time (R58). -/
def GoKind.timeOf (k : GoKind) (s : State) (a : Action) : Nat :=
  if k = .back then s.working.params.backTime else a.time

/-- The delay with which a GO operation runs an action: its own, and for BACK none (R58). -/
def GoKind.delayOf (k : GoKind) (a : Action) : Nat := if k = .back then 0 else a.delay

/-- What a GO operation does to the channels and the scheduled starts (R9, R18 to R20, R58, R59 steps 1 and 2): an
action on a parked channel does nothing; one without delay starts a fade from the present level, or sets the level; one
with a delay waits as a scheduled start; the older scheduled starts of the channels acted on go; every other channel and
scheduled start stays, thawed if the player was PAUSED. -/
def GoActs (k : GoKind) (q : Cue) (s t : State) : Prop :=
  let thawFade : Fade → Fade := fun f => if s.player.state = .paused then f.thaw s.now else f
  let thawSched : Sched → Sched := fun e =>
    if s.player.state = .paused then { e with left := ⟨e.left.remaining, s.now⟩ } else e
  (∀ c : Chan, (s.chan c).park ≠ none ∨ (∀ a ∈ q.actions, a.channel = c → k.delayOf a ≠ 0) →
      t.chan c = { s.chan c with fade := (s.chan c).fade.map thawFade })
    ∧ (∀ a ∈ q.actions, (s.chan a.channel).park = none → k.delayOf a = 0 → k.timeOf s a = 0 →
        t.chan a.channel = ⟨a.target, none, none, .owned (.cue q.number)⟩)
    ∧ (∀ a ∈ q.actions, (s.chan a.channel).park = none → k.delayOf a = 0 → k.timeOf s a ≠ 0 →
        t.chan a.channel = ⟨(s.chan a.channel).level, none,
          some ⟨(s.chan a.channel).level, a.target, a.curve, k.timeOf s a, 0, s.now, .cue q.number, false⟩,
          .owned (.cue q.number)⟩)
    ∧ ∀ e : Sched, e ∈ t.player.sched ↔
        (∃ a ∈ q.actions, (s.chan a.channel).park = none ∧ k.delayOf a ≠ 0
            ∧ e = ⟨a.channel, a.target, k.timeOf s a, a.curve, q.number, ⟨k.delayOf a, s.now⟩⟩)
          ∨ ∃ x ∈ s.player.sched, e = thawSched x
              ∧ ∀ a ∈ q.actions, a.channel = x.channel → (s.chan a.channel).park ≠ none

/-- A GO operation takes an item of cue `n` away (R19, R59 step 2, R66): a scheduled start on a channel it acts on, or a
fade that an action without delay takes over. -/
def GoTakes (k : GoKind) (q : Cue) (n : Nat) (s : State) : Prop :=
  ∃ a ∈ q.actions, (s.chan a.channel).park = none
    ∧ ((∃ x ∈ s.player.sched, x.channel = a.channel ∧ x.owner = n)
      ∨ (k.delayOf a = 0 ∧ ∃ f, (s.chan a.channel).fade = some f ∧ f.owner = .cue n))

/-- The live cue list after a GO operation (R59 step 3, R66, R70, R71): the entry of the cue stands at the tail and counts
what the cue owns, or is gone if that is nothing; the other entries that are left stand in their order; the cut flag of
each is that of the entry before, set if the operation took an item of its cue away. -/
def GoLive (k : GoKind) (q : Cue) (s t : State) : Prop :=
  (∃ others cut, t.player.live = others ++ (if t.owned q.number = 0 then [] else [⟨q.number, t.owned q.number, cut⟩])
      ∧ (others.map (·.cue)).Sublist ((s.player.live.map (·.cue)).filter fun n => n != q.number))
    ∧ (LiveLaw s → ∀ e ∈ t.player.live, e.cut = true ↔
        (∃ x ∈ s.player.live, x.cue = e.cue ∧ x.cut = true) ∨ GoTakes k q e.cue s)

/-- The GO operation started this cue (R59): position, follow timer, state, channels, lists and reports after it. -/
def GoStarts (k : GoKind) (q : Cue) (source : Source) (s t : State) : Prop :=
  t.player.position = q.number ∧ t.player.resumeTo = none
    ∧ t.player.follow = (if k = .back then none else q.follow.map fun time => (⟨time, s.now⟩ : Countdown))
    ∧ t.player.state = (if t.player.live ≠ [] ∨ t.player.follow.isSome then .running else .waiting)
    ∧ GoActs k q s t ∧ GoLive k q s t ∧ GoReports q source s t ∧ OnlyPlayback s t

/-- GO from a source whose refusal is LIST_END (R56, R80). -/
def NextCueOrListEnd (source : Source) (s t : State) : Prop :=
  (∀ q ∈ s.working.cues, Chosen .go q s → GoStarts .go q source s t)
    ∧ ((∀ q ∈ s.working.cues, q.number ≤ s.player.position) → t = { s with
        report := s.report.offer s.working.params.reportEnable s.now (.listEnd s.player.position source) })

/-- GO, GO_TO n or BACK as the action of a slot, with its status (R107). -/
def ArmGoRuns (k : GoKind) (s t : State) (st : Status) : Prop :=
  (∀ q ∈ s.working.cues, Chosen k q s → st = .done ∧ GoStarts k q .arm s t)
    ∧ ((∀ q ∈ s.working.cues, ¬ Chosen k q s) → t = s ∧ st = match k with
      | .goTo _ => .notFound
      | .go => .endOfList
      | .back => .endOfList)

/-- The action of a slot runs as the message of its name, FADE with tag 0, and GO, GO_TO and BACK with source ARM
(R107). -/
def ActionRuns (a : ArmAction) (s t : State) (st : Status) : Prop :=
  let runs (m : Message) : Prop := ∃ data, runMessage .node m s = (t, ⟨st, data⟩)
  match a with
  | .go => ArmGoRuns .go s t st
  | .goTo n => ArmGoRuns (.goTo n) s t st
  | .back => ArmGoRuns .back s t st
  | .pause => runs .pause
  | .resume => runs .resume
  | .release time => runs (.release (BitVec.ofNat 16 time))
  | .fade mask target time curve =>
    runs (.fade mask (BitVec.ofNat 16 target) (BitVec.ofNat 32 time) (BitVec.ofNat 8 curve) 0)
  | .setMaster level time => runs (.setMaster (BitVec.ofNat 16 level) (BitVec.ofNat 16 time))

/-- Slot `k`, ARMED with `d`, fires (R108, R109): its flag is set, it is emptied if its mode is ONCE, its action runs,
ARM_FIRED is offered, and the CUE_DONEs of the action are to be taken before the next snapshot (R110). -/
def SlotFires (k : Fin 8) (d : ArmDef) (s t : State) : Prop :=
  let flagged : State := { s with
    arm := { s.arm with
      fired := Table.put s.arm.fired k true
      memory := if d.mode = .once then Table.put s.arm.memory k none else s.arm.memory }
    working := { s.working with
      arms := if d.mode = .once then Table.put s.working.arms k none else s.working.arms } }
  ∃ (u : State) (st : Status) (more : List Arrival), ActionRuns d.action flagged u st
    ∧ u.arm.inbox = s.arm.inbox ++ more
    ∧ t = { u with
        arm := { u.arm with inbox := s.arm.inbox ++ more.map fun a => { a with ahead := true } }
        report := u.report.offer s.working.params.reportEnable s.now (.armFired k d.action st) }

/-- The slots fire one after another, each whole before the next (R110 step 3). -/
def FireInOrder : List (Fin 8 × ArmDef) → State → State → Prop
  | [], s, t => t = s
  | x :: rest, s, t => ∃ u, SlotFires x.1 x.2 s u ∧ FireInOrder rest u t

/-- The ARMED slots that fire, in ascending order, with what they hold. -/
def firing (fires : Fin 8 → Bool) (w : Show) : List (Fin 8 × ArmDef) :=
  (List.finRange 8).filterMap fun k => if fires k then (Table.at w.arms k).map fun d => (k, d) else none

/-- The slots that an arrival satisfies and whose flags are clear fire in ascending order, each whole (R110 step 3). -/
def FireAll (fires : Fin 8 → Bool) (s t : State) : Prop :=
  (∀ x ∈ firing fires s.working, x.2.action.inRange) → CueListLaw s.working → PositionLaw s →
    FireInOrder (firing fires s.working) s t

/-- The slots that fire when input `i` becomes active or inactive: those with INPUT_EDGE on it, of an edge that the change
has, whose flags are clear (R103, R110). -/
def inputFires (i : Input) (active : Bool) (s : State) : Fin 8 → Bool := fun k =>
  !Table.at s.arm.fired k && match Table.at s.working.arms k with
    | some d => d.condition == .inputEdge i .both
        || (active && (d.condition == .inputEdge i .rise)) || (!active && (d.condition == .inputEdge i .fall))
    | none => false

/-- A record of CUE_ACTIONS is good: a channel 1 to 24, and either a removal with its other fields 0 or a set record
with its fields in the ranges of R30 (R36). -/
abbrev actionRecordOk (r : RawAction) : Prop :=
  (1 ≤ r.channel.toNat ∧ r.channel.toNat ≤ 24)
    ∧ if r.target = 0xFFFF then r.time = 0 ∧ r.delay = 0 ∧ r.curve = 0
      else r.target.toNat ≤ 4095 ∧ r.time.toNat ≤ 600000 ∧ r.delay.toNat ≤ 60000 ∧ r.curve.toNat ≤ 15

/-- The command row that stands for a frame with this header and message. -/
def commandOf (h : Hdr) : Message → Instr
  | .identify => .identify h
  | .readStatus => .readStatus h
  | .configure pairs => .configure h pairs
  | .readConfig first count => .readConfig h first count
  | .patch first records => .patch h first records
  | .readPatch first count => .readPatch h first count
  | .reset mode => .reset h mode
  | .editCurve id count => .editCurve h id count
  | .curvePoints first points => .curvePoints h first points
  | .editCue cue => .editCue h cue
  | .cueActions records => .cueActions h records
  | .cueFollow follow => .cueFollow h follow
  | .editCommit => .editCommit h
  | .editAbort => .editAbort h
  | .deleteCue cue => .deleteCue h cue
  | .dropCurve id => .dropCurve h id
  | .readCue cue first => .readCue h cue first
  | .readCurve id first => .readCurve h id first
  | .listCues after => .listCues h after
  | .go => .go h
  | .goTo cue => .goTo h cue
  | .back => .back h
  | .pause => .pause h
  | .resume => .resume h
  | .release time => .release h time
  | .readPlayer part first => .readPlayer h part first
  | .fade mask target time curve tag => .fade h mask target time curve tag
  | .park mask level => .park h mask level
  | .unpark mask => .unpark h mask
  | .setMaster level time => .setMaster h level time
  | .setBlackout state => .setBlackout h state
  | .readChannels first count => .readChannels h first count
  | .arm slot mode condition action => .arm h slot mode condition action
  | .disarm slot => .disarm h slot
  | .readArm slot => .readArm h slot
  | .poll ack => .poll h ack
  | .storeShow => .storeShow h
  | .loadShow => .loadShow h
  | .readMemory => .readMemory h

end Sys2Proof.Machine
end

