-- ==== Sys2Proof/Certificates/Slice0/Obligations.lean ====
section
/-! DEFINITION. The statements about the part, for the provers. A message row is a whole frame of the host; `Answers`,
`Refuses`, `TakesNew` and `TakesGroup` of Safety.lean say how its reply leaves and when the frame is taken. -/

section

open Sys2Proof Sys2Proof.Machine

/-! ## The queue and the passing of time -/

/-- A step with a command waiting is that command on the state with the queue's rest. The queue of waiting commands
and the step are the model's own: the spec has neither (log entry 1). -/
def Obligations.FrontOfQueueRuns : Prop :=
  ∀ (c : Instr) (rest : List Instr) (s : State), s.pending = c :: rest → step s = exec c (s.withPending rest)

/-- No command stops the part: every command leads to a next state (the model's choice of a closed `Fault` without
constructors, as the spec gives every command an effect or none).

No command takes or adds a waiting command: the queue is the model's own (log entry 1).

With no command waiting, the part takes one of the events that are due, and the only one when there is one; the order
of several is a free value (the model's choice, log entries 1 and 3).

With no command waiting and nothing due, a running part lets one microsecond pass: engine time grows by 1 each 1000 of
them, the frame timer and the PWM timer count down, a shift, a reply, a gap and a silence grow older, and with each
millisecond the lines can be sampled again (the model's choice of the microsecond, log entries 1, 2 and 21). A part
that does not run has no frame timer; one without power or held in reset stands still. -/
def Obligations.CommandsRunAndTimePasses : Prop :=
  (∀ (c : Instr) (s : State), ∃ t, exec c s = .next t)
  ∧ (∀ (c : Instr) (s t : State), exec c s = .next t → t.pending = s.pending)
  ∧ (∀ s : State, s.pending = [] →
    (∀ c, dueEvents s = [c] → step s = exec c s)
      ∧ (dueEvents s ≠ [] → ∃ c ∈ dueEvents s, ∃ k, step s = exec c { s with free := k }))
  ∧ (∀ s : State, s.pending = [] → dueEvents s = [] →
    (s.phase = .running →
      step s = .next { s with
        clock := {
          engineTime := if 999 ≤ s.clock.micro then s.clock.engineTime + 1 else s.clock.engineTime
          micro := if 999 ≤ s.clock.micro then 0 else s.clock.micro + 1
          frameTimer := s.clock.frameTimer.map fun n => n - 1 }
        pwm := { s.pwm with timer := s.pwm.timer.map fun t => ⟨t.period, t.left - 1⟩ }
        chain := { s.chain with age := if s.chain.shifting then s.chain.age + 1 else s.chain.age }
        line := { s.line with
          reply := match s.line.reply with
            | .idle => .idle
            | .waiting frame age => .waiting frame (age + 1)
            | .sending frame age => .sending frame (age + 1)
          rxAge := match s.line.rx with
            | .hunt => s.line.rxAge
            | .receiving _ => s.line.rxAge + 1
          silence := match s.line.silence with
            | .listening => .listening
            | .silent ms => .silent (if 999 ≤ s.clock.micro then ms + 1 else ms) }
        inputs := { s.inputs with
          sampled := if 999 ≤ s.clock.micro then Vector.replicate 4 false else s.inputs.sampled } })
    ∧ (s.phase = .loading →
      step s = .next { s with clock := {
        engineTime := if 999 ≤ s.clock.micro then s.clock.engineTime + 1 else s.clock.engineTime
        micro := if 999 ≤ s.clock.micro then 0 else s.clock.micro + 1
        frameTimer := s.clock.frameTimer } })
    ∧ (s.phase = .off ∨ s.phase = .held → step s = .next s))

/-! ## Characters, frames and replies -/

/-- HUNT and RECEIVING (R166) while the part listens: which characters begin a frame, are held, or discard it. The
character before this one ended `rxAge` µs before the end of this one, which lasts 10 bits of the line rate; the gap
is measured to its start (R166; that the row stands for the end of the stop bit is log entry 19).

A frame held that stops short is discarded and counted when 2 ms have passed, and not before (R166).

CHECK (R167): a complete frame whose CRC differs is counted and discarded, and a good one with the lead byte of a
reply is ignored. -/
def Obligations.CharactersAreAssembled : Prop :=
  (∀ (b : Byte) (framing : Bool) (s : State), Listens s →
    (s.line.rx = .hunt → framing = false → b = 0xD2 ∨ b = 0xD3 →
      exec (.receiveCharacter b framing) s = .next { s with line := { s.line with rx := .receiving [b], rxAge := 0 } })
    ∧ (s.line.rx = .hunt → framing = true ∨ (b ≠ 0xD2 ∧ b ≠ 0xD3) →
      exec (.receiveCharacter b framing) s = .next { s with line := { s.line with rxAge := 0 } })
    ∧ ∀ held : List Byte, s.line.rx = .receiving held →
      (s.line.rxAge * rateOf s.line.lineRate ≤ 2000 * rateOf s.line.lineRate + 10000000 →
        (framing = true →
          exec (.receiveCharacter b framing) s = .next { s with line := { s.line with
            rx := .hunt, rxAge := 0, frameErrors := min 65535 (s.line.frameErrors + 1) } })
        ∧ (framing = false → held.length = 4 → 60 < b.toNat →
          exec (.receiveCharacter b framing) s = .next { s with line := { s.line with
            rx := .hunt, rxAge := 0, frameErrors := min 65535 (s.line.frameErrors + 1) } })
        ∧ (framing = false →
            held.length < 4 ∨ (held.length = 4 ∧ b.toNat ≤ 60)
              ∨ (∃ a c d e len rest, held = a :: c :: d :: e :: len :: rest ∧ len.toNat ≤ 60
                  ∧ held.length + 1 < 5 + len.toNat + 2) →
          exec (.receiveCharacter b framing) s = .next { s with line := { s.line with
            rx := .receiving (held ++ [b]), rxAge := 0 } }))
      ∧ (2000 * rateOf s.line.lineRate + 10000000 < s.line.rxAge * rateOf s.line.lineRate →
        exec (.receiveCharacter b framing) s
          = exec (.receiveCharacter b framing) { s with line := { s.line with
              rx := .hunt, frameErrors := min 65535 (s.line.frameErrors + 1) } }))
  ∧ (∀ (s : State) (held : List Byte), s.phase = .running → s.line.rx = .receiving held →
    (2000 ≤ s.line.rxAge →
      exec .frameGapTimeout s = .next { s with line := { s.line with
        rx := .hunt, frameErrors := min 65535 (s.line.frameErrors + 1) } })
    ∧ (s.line.rxAge < 2000 → exec .frameGapTimeout s = .next s))
  ∧ (∀ (lead a c d len lo hi : Byte) (payload : List Byte) (s : State), Listens s →
    payload.length = len.toNat → len.toNat ≤ 60 →
    s.line.rx = .receiving ([lead, a, c, d, len] ++ payload ++ [lo]) →
    s.line.rxAge * rateOf s.line.lineRate ≤ 2000 * rateOf s.line.lineRate + 10000000 →
    (half lo hi ≠ crc16 ([a, c, d, len] ++ payload) →
      exec (.receiveCharacter hi false) s = .next { s with line := { s.line with
        rx := .hunt, rxAge := 0, crcErrors := min 65535 (s.line.crcErrors + 1) } })
    ∧ (half lo hi = crc16 ([a, c, d, len] ++ payload) → lead = 0xD3 →
      exec (.receiveCharacter hi false) s = .next { s with line := { s.line with rx := .hunt, rxAge := 0 } }))

/-- The payload layouts and the kinds agree with the messages: the payload of a message whose lists have the lengths
of the payload table, read back by its kind, is that message as the line interface judges it (R208). -/
def Obligations.PayloadsReadBack : Prop :=
  ∀ m : Message, m.lengthOk = true →
    (payloadOf m).length ≤ 60 ∧ parseMessage (kindOf m) (payloadOf m) = lineCheck m

/-- The last character of the frame of a message, each character of it received in time, does what the message's row
does in HUNT: the rows of the messages stand for the characters of their frames (R165 to R167, log entries 5 and
19). -/
def Obligations.FrameIsItsMessage : Prop :=
  ∀ (h : Hdr) (m : Message) (s : State) (held : List Byte) (last : Byte), Listens s → m.lengthOk = true →
    hostFrame h m = held ++ [last] → s.line.rx = .receiving held →
    s.line.rxAge * rateOf s.line.lineRate ≤ 2000 * rateOf s.line.lineRate + 10000000 →
    exec (.receiveCharacter last false) s
      = exec (commandOf h m) { s with line := { s.line with rx := .hunt } }

/-- A frame is heard only by a running part that is not sending, and taken only under its own address, broadcast or a
group of which the node is a member (R164, R169, R188); that a part that is loading its show hears nothing, its
characters included, is the model's choice (log entry 35). A frame still held when a whole frame has been received had
stopped short, and is counted in frame_errors (R166, log entry 5).

What arrives on RXD before a reply has begun abandons it (R172); with a reset pending, the reset takes effect and the
character or frame is lost (R183).

The reply cache answers a node-addressed frame that repeats its SEQ and KIND, SEQ not 0, with the cached payload, and
nothing is executed (R173).

A message with a wrong length or a reserved byte set is refused before it reaches its block (R170). So is a frame,
received character by character, whose KIND names no message, with BAD_KIND, and one whose payload has a length that
its kind does not allow, with BAD_LENGTH, in this order (R170 steps 1 and 2, R206, R208). -/
def Obligations.LineInterfaceDecides : Prop :=
  (∀ (h : Hdr) (m : Message) (s : State),
    (s.phase ≠ .running ∨ (∃ frame age, s.line.reply = .sending frame age) → exec (commandOf h m) s = .next s)
    ∧ (Listens s → ¬ NamesNode h.addr s → ¬ NamesGroup h.addr s →
      exec (commandOf h m) s = .next { s with line := { s.line with
        rx := .hunt, rxAge := 0, frameErrors := s.line.errorsAfter } }))
  ∧ (∀ (c : Instr) (s : State) (frame : List Byte) (age : Nat),
    (∃ b framing, c = .receiveCharacter b framing) ∨ (∃ h m, c = commandOf h m) →
    s.phase = .running → s.line.reply = .waiting frame age →
    (s.line.pendingReset = none → exec c s = exec c { s with line := { s.line with reply := .idle } })
    ∧ ∀ mode, s.line.pendingReset = some mode →
      exec c s = .next (takeReset mode { s with line := { s.line with reply := .idle } }))
  ∧ (∀ (h : Hdr) (m : Message) (s : State) (payload : List Byte), Listens s → NamesNode h.addr s → h.seq ≠ 0 →
    s.line.cache = some ⟨h.seq, kindOf m, payload⟩ →
    exec (commandOf h m) s = .next (s.taken.setLine { s.taken.line with
      reply := .waiting (replyFrame h.addr h.seq (kindOf m) payload) 0 }))
  ∧ ((∀ (h : Hdr) (m : Message) (s : State), TakesNew h (kindOf m) s →
    (m.lengthOk = false → Refuses (commandOf h m) h (kindOf m) s .badLength)
    ∧ (m.lengthOk = true → reservedOk m = false → Refuses (commandOf h m) h (kindOf m) s .badValue))
  ∧ (∀ (h : Hdr) (kind len lo hi : Byte) (payload : List Byte) (s : State), TakesNew h kind s →
    payload.length = len.toNat → len.toNat ≤ 60 →
    s.line.rx = .receiving ([0xD2, h.addr, h.seq, kind, len] ++ payload ++ [lo]) →
    s.line.rxAge * rateOf s.line.lineRate ≤ 2000 * rateOf s.line.lineRate + 10000000 →
    half lo hi = crc16 ([h.addr, h.seq, kind, len] ++ payload) →
    let hunting : State := { s with line := { s.line with rx := .hunt } }
    (payloadLengths kind = [] →
      exec (.receiveCharacter hi false) s = .next (answer h.seq kind ⟨.badKind, []⟩ hunting.taken))
    ∧ (payloadLengths kind ≠ [] → payload.length ∉ payloadLengths kind →
      exec (.receiveCharacter hi false) s = .next (answer h.seq kind ⟨.badLength, []⟩ hunting.taken))))

/-- A group or broadcast frame is never answered and leaves the reply cache alone; a repeat and a kind that groups may
not carry do no more than be taken (R174, R175).

A group or broadcast frame of a kind that groups may carry, GO, GO_TO and BACK apart, does what the node's own frame
does, but for the reply (R85, R175).

GO, GO_TO and BACK in a group or broadcast frame run the GO operation with source GROUP, which offers CUE_STARTED with
that source; refused, they do no more than be taken (R55 to R59, R78, R175). -/
def Obligations.GroupFramesActWithoutReply : Prop :=
  (∀ (h : Hdr) (m : Message) (s t : State), Listens s → NamesGroup h.addr s → exec (commandOf h m) s = .next t →
    t.line.reply = .idle ∧ t.line.cache = s.line.cache
      ∧ (h.seq ≠ 0 → s.line.filter = some (h.seq, kindOf m) → t = s.taken)
      ∧ (TakesGroup h (kindOf m) s → groupPermits (kindOf m) = false ∨ m.lengthOk = false →
          t = s.filtered h (kindOf m)))
  ∧ ((∀ (h : Hdr) (m : Message) (s t : State) (r : Resp), TakesGroup h (kindOf m) s →
    (m = .pause ∨ m = .resume ∨ (∃ time, m = .release time) ∨ (∃ l time, m = .setMaster l time)
      ∨ (∃ b, m = .setBlackout b) ∨ ∃ mask target time curve tag, m = .fade mask target time curve tag) →
    runMessage .node m (s.filtered h (kindOf m)) = (t, r) → exec (commandOf h m) s = .next t)
  ∧ (∀ (h : Hdr) (m : Message) (k : GoKind) (s : State), CueListLaw s.working → PositionLaw s →
    TakesGroup h (kindOf m) s →
    (m = .go ∧ k = .go) ∨ (∃ n : Half, m = .goTo n ∧ k = .goTo n.toNat) ∨ (m = .back ∧ k = .back) →
    (∀ q ∈ s.working.cues, Chosen k q s →
      ∃ t, exec (commandOf h m) s = .next t ∧ GoStarts k q .group (s.filtered h (kindOf m)) t)
    ∧ ((∀ q ∈ s.working.cues, ¬ Chosen k q s) → exec (commandOf h m) s = .next (s.filtered h (kindOf m)))))

/-- A reply built for a new command waits from age 0, and it fits a frame: at most 67 bytes, with LEN the length of
its payload (R165, R171, R204).

A reply starts no earlier than 100 µs after its command, and DE is asserted from its start to its end; it ends when
its last stop bit has been sent, and the assembler is then in HUNT (R164, R171). That a reply starts whenever
REPLY_START says so after 100 µs, beyond 1 ms too, is the model's choice (log entry 20).

TXD carries the characters of the reply one after another, each a start bit 0, eight data bits least significant first
and a stop bit 1 at the line rate, and is 1 otherwise (R164; as functions of the state, log entry 30). -/
def Obligations.RepliesAreBuiltAndSent : Prop :=
  (∀ (h : Hdr) (m : Message) (s t : State), TakesNew h (kindOf m) s → exec (commandOf h m) s = .next t →
    ∃ (st : Status) (data : List Byte), data.length ≤ 59
      ∧ t.line.reply = .waiting ([0xD3, h.addr, h.seq, kindOf m, BitVec.ofNat 8 (data.length + 1),
            BitVec.ofNat 8 st.code] ++ data
          ++ byte2 (crc16 ([h.addr, h.seq, kindOf m, BitVec.ofNat 8 (data.length + 1),
              BitVec.ofNat 8 st.code] ++ data)).toNat) 0
      ∧ t.line.cache
          = if h.seq = 0 then none else some ⟨h.seq, kindOf m, BitVec.ofNat 8 st.code :: data⟩)
  ∧ ((∀ (s : State) (frame : List Byte) (age : Nat), s.phase = .running →
    (s.line.reply = .waiting frame age → 100 ≤ age → ∃ t, exec .replyStart s = .next t
      ∧ t = { s with line := { s.line with reply := .sending frame 0 } } ∧ t.de = true)
    ∧ (s.line.reply = .waiting frame age → age < 100 → exec .replyStart s = .next s)
    ∧ (s.line.reply = .sending frame age → s.line.pendingReset = none →
        frame.length * 10000000 ≤ age * rateOf s.line.lineRate → ∃ t, exec .replyEnd s = .next t
      ∧ t = { s with line := { s.line with reply := .idle, rx := .hunt } } ∧ t.de = false)
    ∧ (s.line.reply = .sending frame age → age * rateOf s.line.lineRate < frame.length * 10000000 →
      exec .replyEnd s = .next s))
  ∧ (∀ s : State,
    ((∃ frame age, s.line.reply = .sending frame age) ↔ s.de = true)
    ∧ (s.de = false → s.txd = true)
    ∧ ∀ (frame : List Byte) (age : Nat) (character : Byte), s.line.reply = .sending frame age →
      let bit := age * rateOf s.line.lineRate / 1000000
      frame[bit / 10]? = some character →
        (bit % 10 = 0 → s.txd = false) ∧ (bit % 10 = 9 → s.txd = true)
        ∧ ∀ j, j < 8 → bit % 10 = j + 1 → s.txd = character.getLsbD j))

/-! ## The starts -/

/-- Power-on, a low level on RST# and power loss set every block to its reset values, read the straps, and keep the
banks where no store is in progress (R3, R28, R34, R84, R133, R140, R148, R162, R188). A part that RST# holds low, or
that has no power, does not run; power lost keeps the reason of the last start, which nothing can read (log entries 6
and 7). The CUE_DONEs on their way to the arm monitor are lost (log entry 16).

What a start leaves, value by value (R3, R5, R28, R34, R84, R133, R140, R148, R162, R169, R188, R192): levels 0,
nothing parked, no fade, the master at 1000, the player STOPPED at position 0, no edit session, no flag, no report, an
empty cache and filter, counters 0.

RST# high lets a held part go on to the load of its show, and changes nothing else; RST# low does nothing more than
stand on the pin of a part without power (R188, log entry 7). -/
def Obligations.StartsResetEveryBlock : Prop :=
  (∀ (addr : BitVec 6) (rate : BitVec 2) (s : State), s.mem.store = none →
    exec (.powerOn addr rate) s = .next
      (State.cold .power (if s.pins.rstLow then .held else .loading)
        { s.pins with strapAddr := addr, strapRate := rate } s.mem.banks s.pending s.free)
    ∧ (s.phase ≠ .off → exec (.rstPinLow addr rate) s = .next
      (State.cold .pin .held { s.pins with rstLow := true, strapAddr := addr, strapRate := rate }
        s.mem.banks s.pending s.free))
    ∧ exec .powerLoss s = .next (State.cold s.line.lastStart .off s.pins s.mem.banks s.pending s.free))
  ∧ (∀ (reason : Reason) (phase : Phase) (pins : Pins) (banks : Table Memory 2) (pending : List Instr) (free : Nat)
    (t : State), t = State.cold reason phase pins banks pending free →
    t.clock = ⟨0, 0, none⟩ ∧ (∀ c : Chan, t.chan c = ⟨0, none, none, .nobody⟩)
      ∧ t.fade.master = 1000 ∧ t.fade.masterCtx = none ∧ t.fade.tags = [] ∧ t.fade.snapshot = none
      ∧ t.editor.session = .idle
      ∧ t.player = ⟨.stopped, 0, none, none, [], []⟩
      ∧ (∀ k : Fin 8, Table.at t.arm.fired k = false) ∧ t.arm.inbox = []
      ∧ (∀ i : Input, Table.at t.inputs.wait i = none)
      ∧ (∀ k : Fin 8, Table.at t.arm.memory k = none)
      ∧ t.comp.hostBlackout = false ∧ (∀ o : Fin 40, Table.at t.comp.composed o = 0)
      ∧ (∀ k : Fin 8, Table.at t.pwm.applied k = 0 ∧ Table.at t.pwm.waiting k = none)
      ∧ (∀ b : Fin 2, (Table.at t.chain.bufs b).role = .free) ∧ t.chain.skips = 0
      ∧ t.report = ⟨[], 1, 0⟩
      ∧ t.line.nodeAddr = pins.strapAddr ∧ t.line.lineRate = pins.strapRate ∧ t.line.rx = .hunt
      ∧ t.line.reply = .idle ∧ t.line.cache = none ∧ t.line.filter = none ∧ t.line.crcErrors = 0
      ∧ t.line.frameErrors = 0 ∧ t.line.silence = .listening ∧ t.line.lastStart = reason
      ∧ t.line.pendingReset = none
      ∧ t.mem.banks = banks ∧ t.mem.store = none ∧ t.mem.lastResult = none)
  ∧ (∀ (addr : BitVec 6) (rate : BitVec 2) (s : State),
    (s.phase = .held →
      exec .rstPinHigh s = .next { s with pins := { s.pins with rstLow := false }, phase := .loading })
    ∧ (s.phase ≠ .held → exec .rstPinHigh s = .next { s with pins := { s.pins with rstLow := false } })
    ∧ (s.phase = .off → exec (.rstPinLow addr rate) s = .next { s with
        pins := { s.pins with rstLow := true, strapAddr := addr, strapRate := rate } }))

/-- The load at a start (R5, R112, R125, R128, R161, R162, R191): the bank records take the checks, with the
generation of the header (log entry 25), the newest valid show or the defaults become the working show, the lines are
sampled, the timers start, STARTUP is the one record, and the part runs. That the PWM period timer starts here, and
not at the instant of the reset, is the model's choice (R140, log entry 32). -/
def Obligations.LoadAtStartSetsTheShow : Prop :=
  ∀ s : State, s.phase = .loading → s.report = ⟨[], 1, 0⟩ → ∃ t, exec .startUpLoad s = .next t
    ∧ t.phase = .running
    ∧ (∀ b : Bank, Table.at t.mem.recs b = (checkBank (Table.at s.mem.banks b)).map Prod.fst)
    ∧ (∀ b g w, newestBank t.mem.recs = some (b, g) → checkBank (Table.at s.mem.banks b) = some (g, w) →
        t.working = w ∧ t.report.queue = [⟨1, s.now, .startup s.line.lastStart (some b) g, false⟩])
    ∧ (newestBank t.mem.recs = none →
        t.working = Show.default ∧ t.report.queue = [⟨1, s.now, .startup s.line.lastStart none 0, false⟩])
    ∧ t.report.nextSeq = 2 ∧ t.report.lost = 0
    ∧ t.inputs.level = s.pins.lines ∧ t.inputs.sample = s.pins.lines ∧ (∀ i : Input, Table.at t.inputs.wait i = none)
    ∧ t.comp.lineBlackout = t.blackoutCondition
    ∧ t.clock = { s.clock with frameTimer := some (t.working.params.framePeriod * 1000) }
    ∧ t.pwm.timer = some ⟨1000000 / t.working.params.pwmFrequency, 1000000 / t.working.params.pwmFrequency⟩
    ∧ t.line = { s.line with silenceFrom := s.now }
    ∧ (∀ k : Fin 8, Table.at t.arm.fired k = false
        ∧ Table.at t.arm.memory k = (Table.at t.working.arms k).bind fun d => t.initialMemory d.condition)
    ∧ t.fade = s.fade ∧ t.player = s.player ∧ t.editor = s.editor ∧ t.chain = s.chain
    ∧ t.mem = { s.mem with recs := t.mem.recs }

/-- RESET is accepted and pends, changing nothing else; WARM is refused during a store, and a mode that is neither
WARM nor COLD always (R183).

A RESET takes effect at the end of its reply (R183). WARM drops levels, parks, fades, playback, the edit session,
waits, the host blackout and the chain's buffers, keeps the working show, engine time, banks, cache, counters and
reports, and offers STARTUP(WARM) (R5, R29, R84, R116, R128, R133, R148, R163, R188); every flag is clear, and the
memory of a LEVEL_CROSS slot is 0, that of any other slot absent (R112, R116). COLD is a start of its own. -/
def Obligations.ResetTakesEffectAfterItsReply : Prop :=
  (∀ (h : Hdr) (mode : Byte) (s : State), TakesNew h 0x0F s →
    (mode = 0 → s.mem.store = none → Answers (.reset h mode) h 0x0F s
      { s.taken with line := { s.taken.line with pendingReset := some .warm } } .done [])
    ∧ (mode = 1 → Answers (.reset h mode) h 0x0F s
      { s.taken with line := { s.taken.line with pendingReset := some .cold } } .done [])
    ∧ (mode = 0 → s.mem.store ≠ none → Refuses (.reset h mode) h 0x0F s .busy)
    ∧ (1 < mode.toNat → Refuses (.reset h mode) h 0x0F s .badValue))
  ∧ (∀ (s : State) (frame : List Byte) (age : Nat), s.phase = .running → s.line.reply = .sending frame age →
    frame.length * 10000000 ≤ age * rateOf s.line.lineRate →
    (s.line.pendingReset = some .warm → ∃ t, exec .replyEnd s = .next t
      ∧ (∀ c : Chan, t.chan c = ⟨0, none, none, .nobody⟩)
      ∧ t.fade.master = 1000 ∧ t.fade.masterCtx = none ∧ t.fade.tags = []
      ∧ t.player = ⟨.stopped, 0, none, none, [], []⟩ ∧ t.editor.session = .idle
      ∧ t.inputs.level = s.pins.lines ∧ t.inputs.sample = s.pins.lines
      ∧ (∀ i : Input, Table.at t.inputs.wait i = none)
      ∧ t.comp = { s.comp with hostBlackout := false, lineBlackout := t.blackoutCondition }
      ∧ (∀ b : Fin 2, (Table.at t.chain.bufs b).role = .free) ∧ t.chain.skips = s.chain.skips
      ∧ t.clock = { s.clock with frameTimer := some (s.working.params.framePeriod * 1000) }
      ∧ t.line = { s.line with rx := .hunt, reply := .idle, silence := .listening, silenceFrom := s.now,
                               lastStart := .warm, pendingReset := none }
      ∧ t.report = s.report.offer s.working.params.reportEnable s.now (.startup .warm none 0)
      ∧ (∀ k : Fin 8, Table.at t.arm.fired k = false
          ∧ Table.at t.arm.memory k = match (Table.at s.working.arms k).map (·.condition) with
            | some (.levelCross _ _ _) => some 0
            | _ => none)
      ∧ t.phase = .running ∧ t.working = s.working ∧ t.pwm = s.pwm ∧ t.mem = s.mem ∧ t.pins = s.pins)
    ∧ (s.line.pendingReset = some .cold → s.mem.store = none →
      exec .replyEnd s = .next (State.cold .cold .loading s.pins s.mem.banks s.pending s.free)))

/-- A store cut off by power loss, by RST# or by a COLD reset that takes effect at the end of its reply is abandoned:
no result, no report, its target invalid, the other bank untouched; in PROGRAMMING the target has image, CRC or header
partly written, in this order, and in VERIFYING it stays as it stood (R195, R199, log entry 11). POWER_ON of a part
that has power is a power cycle and does the same (the model's choice, log entry 6). -/
def Obligations.CutOffStoreLeavesItsTargetInvalid : Prop :=
  ∀ (c : Instr) (s t : State) (r : Store) (addr : BitVec 6) (rate : BitVec 2), Sound s → s.mem.store = some r →
    c = .powerLoss ∨ c = .rstPinLow addr rate ∨ c = .powerOn addr rate
      ∨ (c = .replyEnd ∧ s.phase = .running ∧ s.line.pendingReset = some .cold
        ∧ ∃ frame age, s.line.reply = .sending frame age
          ∧ frame.length * 10000000 ≤ age * rateOf s.line.lineRate) →
    exec c s = .next t →
    t.mem.store = none ∧ t.mem.lastResult = none ∧ t.report.queue = []
      ∧ checkBank (Table.at t.mem.banks r.target) = none
      ∧ (r.phase = .programming →
          PartlyProgrammed s.mem.staging (Table.at s.mem.banks r.target) (Table.at t.mem.banks r.target))
      ∧ (r.phase = .verifying → Table.at t.mem.banks r.target = Table.at s.mem.banks r.target)
      ∧ Table.at t.mem.banks (otherBank r.target) = Table.at s.mem.banks (otherBank r.target)

/-! ## The node as a whole, the configuration and the patch -/

/-- IDENTIFY (R177) and READ_STATUS (R178) answer the state as it stands and change nothing; the revision byte is a
free constant 1 to 255 (log entry 12). frame_errors counts a frame that stopped short before this one (R166, log entry
5). -/
def Obligations.NodeReadsAnswer : Prop :=
  ∀ (h : Hdr) (s : State),
    (TakesNew h 0x01 s → Answers (.identify h) h 0x01 s s.taken .done
      ([0x46, 0x52, 0x24, 0xFC] ++ byte1 revision ++ [h.addr] ++ byte1 s.line.lineRate.toNat
        ++ byte2 s.working.params.groupMask.toNat ++ [24, 40, 4, 8, 16, 64] ++ byte2 384 ++ [240, 32]))
    ∧ (TakesNew h 0x02 s → Answers (.readStatus h) h 0x02 s s.taken .done
      (byte4 s.now.toNat ++ byte1 s.line.lastStart.code ++ byte2 s.line.crcErrors ++ byte2 s.line.errorsAfter
        ++ byte1 s.player.state.code ++ byte2 s.player.position
        ++ byte1 s.editor.session.kindCode ++ byte2 s.editor.session.number ++ byte1 (storeCode s.mem.store)
        ++ byte1 s.taken.report.queue.length ++ byte1 s.taken.report.lost
        ++ byte1 (maskOf fun i : Input => Table.at s.inputs.level i == .high)
        ++ byte1 (maskOf fun i : Input => activeAt (Table.at s.working.params.polarity i) (Table.at s.inputs.level i))
        ++ byte1 (flags2 s.comp.hostBlackout s.comp.lineBlackout)))

/-- CONFIGURE applies every pair or none (R179): with every pair good, each parameter holds the last value given for
it and the others are kept, the line blackout condition is handed over when an input setting is named (R127), and the
silence timer is restarted; the first bad pair refuses them all with its index. -/
def Obligations.ConfigureAppliesAllOrNone : Prop :=
  ∀ (h : Hdr) (pairs : List RawPair) (s : State), TakesNew h 0x03 s → 1 ≤ pairs.length → pairs.length ≤ 10 →
    ((∀ p ∈ pairs, paramOk p.id.toNat p.value.toNat = true) →
      ∃ t, Answers (.configure h pairs) h 0x03 s t .done (byte1 pairs.length)
        ∧ (∀ id, t.working.params.value id
            = ((pairs.reverse.find? fun p => p.id.toNat == id).map fun p => p.value.toNat).getD
                (s.working.params.value id))
        ∧ ((∃ p ∈ pairs, 0x06 ≤ p.id.toNat ∧ p.id.toNat ≤ 0x0D) → t.comp.lineBlackout = t.blackoutCondition)
        ∧ ((∀ p ∈ pairs, p.id.toNat < 0x06 ∨ 0x0D < p.id.toNat) → t.comp.lineBlackout = s.comp.lineBlackout)
        ∧ t = { s.taken with
            working := { s.working with params := t.working.params }
            comp := { s.comp with lineBlackout := t.comp.lineBlackout } })
    ∧ ∀ (k : Nat) (p : RawPair), pairs[k]? = some p → paramOk p.id.toNat p.value.toNat = false →
      (∀ q ∈ pairs.take k, paramOk q.id.toNat q.value.toNat = true) →
      Answers (.configure h pairs) h 0x03 s s.taken .badValue (byte1 (k + 1))

/-- READ_CONFIG returns count consecutive parameters from id first upward (R182). -/
def Obligations.ReadConfigReturnsParameters : Prop :=
  ∀ (h : Hdr) (first count : Byte) (s : State), TakesNew h 0x04 s →
    (1 ≤ first.toNat → 1 ≤ count.toNat → count.toNat ≤ 10 → first.toNat + count.toNat ≤ 0x18 →
      Answers (.readConfig h first count) h 0x04 s s.taken .done
        ([first, count] ++ (List.range count.toNat).flatMap fun k =>
          byte4 (s.working.params.value (first.toNat + k))))
    ∧ (first.toNat < 1 ∨ count.toNat < 1 ∨ 10 < count.toNat ∨ 0x18 < first.toNat + count.toNat →
      Refuses (.readConfig h first count) h 0x04 s .badValue)

/-- PATCH replaces count consecutive records in one step, each by the record sent, and neither the composed values nor
anything else; a message with a field or an output out of range writes none (R131).

READ_PATCH returns records with their composed values, the chain setting, the shifter's state and the skip counter,
and changes nothing, the counter included (R132, R147). -/
def Obligations.PatchReplacesRecords : Prop :=
  (∀ (h : Hdr) (first : Byte) (records : List RawOutput) (s : State), TakesNew h 0x05 s →
    1 ≤ records.length → records.length ≤ 8 →
    (1 ≤ first.toNat → first.toNat + records.length ≤ 41 →
      (∀ r ∈ records, r.source.toNat ≤ 24 ∧ r.law.toNat ≤ 2 ∧ r.threshold.toNat ≤ 4095 ∧ r.min.toNat ≤ 4095) →
      ∃ patch : Table Output 40,
        Answers (.patch h first records) h 0x05 s { s.taken with working := { s.working with patch := patch } }
          .done (first :: byte1 records.length)
        ∧ (∀ (o : Fin 40) (k : Nat) (r : RawOutput), o.val + 1 = first.toNat + k → records[k]? = some r →
            (Table.at patch o).bytes = outputRecordBytes r)
        ∧ ∀ o : Fin 40, o.val + 1 < first.toNat ∨ first.toNat + records.length ≤ o.val + 1 →
            Table.at patch o = Table.at s.working.patch o)
    ∧ (first.toNat < 1 ∨ 41 < first.toNat + records.length
        ∨ (∃ r ∈ records, 24 < r.source.toNat ∨ 2 < r.law.toNat ∨ 4095 < r.threshold.toNat ∨ 4095 < r.min.toNat) →
      Refuses (.patch h first records) h 0x05 s .badValue))
  ∧ (∀ (h : Hdr) (first count : Byte) (s : State), TakesNew h 0x06 s →
    (1 ≤ first.toNat → 1 ≤ count.toNat → count.toNat ≤ 6 → first.toNat + count.toNat ≤ 41 →
      Answers (.readPatch h first count) h 0x06 s s.taken .done
        (byte1 s.working.params.chainSlots
          ++ byte1 (flags2 s.chain.shifting (s.chain.withRole .ready).isSome) ++ byte2 s.chain.skips
          ++ [first, count]
          ++ (((List.finRange 40).drop (first.toNat - 1)).take count.toNat).flatMap fun o =>
            (Table.at s.working.patch o).bytes ++ byte2 (Table.at s.comp.composed o)))
    ∧ (first.toNat < 1 ∨ count.toNat < 1 ∨ 6 < count.toNat ∨ 41 < first.toNat + count.toNat →
      Refuses (.readPatch h first count) h 0x06 s .badValue))

/-! ## The editor -/

/-- EDIT_CUE opens a session with a copy of the cue, or with an empty buffer, and EDIT_CURVE one with empty places;
the idle timer starts anew. An open session or an id, number or count out of range refuses them (R35, R38).

The editor's idle timer ends an open session 10 s after its last start, with EDIT_EXPIRED and no change of the working
show (R41). -/
def Obligations.EditSessionsOpenAndExpire : Prop :=
  (∀ (h : Hdr) (s : State),
    (∀ cue : Half, TakesNew h 0x12 s →
      (s.editor.session = .idle → ∀ q, s.working.findCue cue.toNat = some q → q.number = cue.toNat → 1 ≤ q.number →
        q.number ≤ 9999 →
        Answers (.editCue h cue) h 0x12 s { s.taken with editor := ⟨.cue q.number q.follow q.actions, s.now⟩ } .done
          ([1] ++ byte1 q.actions.length))
      ∧ (s.editor.session = .idle → 1 ≤ cue.toNat → cue.toNat ≤ 9999 →
        (∀ q ∈ s.working.cues, q.number ≠ cue.toNat) →
        Answers (.editCue h cue) h 0x12 s { s.taken with editor := ⟨.cue cue.toNat none [], s.now⟩ } .done [0, 0])
      ∧ (s.editor.session ≠ .idle → Refuses (.editCue h cue) h 0x12 s .wrongState)
      ∧ (s.editor.session = .idle → cue.toNat < 1 ∨ 9999 < cue.toNat →
        Refuses (.editCue h cue) h 0x12 s .badValue))
    ∧ ∀ id count : Byte, TakesNew h 0x10 s →
      (s.editor.session = .idle → 1 ≤ id.toNat → id.toNat ≤ 15 → 2 ≤ count.toNat → count.toNat ≤ 32 →
        Answers (.editCurve h id count) h 0x10 s
          { s.taken with editor := ⟨.curve id.toNat (List.replicate count.toNat none), s.now⟩ } .done [])
      ∧ (s.editor.session ≠ .idle → Refuses (.editCurve h id count) h 0x10 s .wrongState)
      ∧ (s.editor.session = .idle → id.toNat < 1 ∨ 15 < id.toNat ∨ count.toNat < 2 ∨ 32 < count.toNat →
        Refuses (.editCurve h id count) h 0x10 s .badValue))
  ∧ (∀ s : State, s.phase = .running → s.editor.session ≠ .idle →
    (10000 ≤ since s.now s.editor.idleFrom →
      (∀ n follow actions, s.editor.session = .cue n follow actions → exec .editIdleTimeout s = .next { s with
        editor := { s.editor with session := .idle }
        report := s.report.offer s.working.params.reportEnable s.now (.editExpired true n) })
      ∧ ∀ id places, s.editor.session = .curve id places → exec .editIdleTimeout s = .next { s with
        editor := { s.editor with session := .idle }
        report := s.report.offer s.working.params.reportEnable s.now (.editExpired false id) })
    ∧ (since s.now s.editor.idleFrom < 10000 → exec .editIdleTimeout s = .next s))

/-- CUE_ACTIONS with good records of different channels: after it the buffer, in channel order, holds the set records
sent and the old records of the channels not named, and nothing else (R36).

CUE_ACTIONS is refused whole, in this order: no cue session, a record out of range, a channel named twice (R36). -/
def Obligations.CueActionsFillTheBuffer : Prop :=
  (∀ (h : Hdr) (records : List RawAction) (s : State) (n : Nat) (follow : Option Nat) (old : List Action),
    TakesNew h 0x13 s → 1 ≤ records.length → records.length ≤ 4 → s.editor.session = .cue n follow old →
    (old.map (·.channel)).Pairwise (· < ·) →
    (∀ r ∈ records, actionRecordOk r) → (records.map (·.channel)).Nodup →
    ∃ actions : List Action,
      Answers (.cueActions h records) h 0x13 s { s.taken with editor := ⟨.cue n follow actions, s.now⟩ } .done
        (byte1 actions.length)
      ∧ (actions.map (·.channel)).Pairwise (· < ·)
      ∧ ∀ a, a ∈ actions ↔
          (∃ r ∈ records, r.target ≠ 0xFFFF ∧ a.inRange ∧ a.bytes = actionRecordBytes r)
            ∨ (a ∈ old ∧ ∀ r ∈ records, r.channel.toNat ≠ a.channel.val + 1))
  ∧ (∀ (h : Hdr) (records : List RawAction) (s : State), TakesNew h 0x13 s → 1 ≤ records.length → records.length ≤ 4 →
    ((∀ n follow actions, s.editor.session ≠ .cue n follow actions) →
      Refuses (.cueActions h records) h 0x13 s .wrongState)
    ∧ ∀ n follow actions, s.editor.session = .cue n follow actions →
      ((∃ r ∈ records, ¬ actionRecordOk r) → Refuses (.cueActions h records) h 0x13 s .badValue)
      ∧ ((∀ r ∈ records, actionRecordOk r) → ¬ (records.map (·.channel)).Nodup →
        Refuses (.cueActions h records) h 0x13 s .duplicate))

/-- CUE_FOLLOW sets or clears the buffer's follow and restarts the idle timer (R37). -/
def Obligations.CueFollowSetsTheFollow : Prop :=
  ∀ (h : Hdr) (follow : Word) (s : State), TakesNew h 0x14 s →
    ((∀ n f actions, s.editor.session ≠ .cue n f actions) → Refuses (.cueFollow h follow) h 0x14 s .wrongState)
    ∧ ∀ n f actions, s.editor.session = .cue n f actions →
      (600000 < follow.toNat → follow ≠ 0xFFFFFFFF → Refuses (.cueFollow h follow) h 0x14 s .badValue)
      ∧ (follow.toNat ≤ 600000 → Answers (.cueFollow h follow) h 0x14 s
          { s.taken with editor := ⟨.cue n (some follow.toNat) actions, s.now⟩ } .done [])
      ∧ (follow = 0xFFFFFFFF → Answers (.cueFollow h follow) h 0x14 s
          { s.taken with editor := ⟨.cue n none actions, s.now⟩ } .done [])

/-- CURVE_POINTS writes its points into consecutive places and leaves the other places as they were; points out of
range or places beyond the buffer write nothing (R39). -/
def Obligations.CurvePointsFillPlaces : Prop :=
  ∀ (h : Hdr) (first : Byte) (points : List RawPoint) (s : State), TakesNew h 0x11 s →
    1 ≤ points.length → points.length ≤ 12 →
    ((∀ id places, s.editor.session ≠ .curve id places) → Refuses (.curvePoints h first points) h 0x11 s .wrongState)
    ∧ ∀ id places, s.editor.session = .curve id places →
      (places.length < first.toNat + points.length ∨ (∃ p ∈ points, 1000 < p.x.toNat ∨ 1000 < p.y.toNat) →
        Refuses (.curvePoints h first points) h 0x11 s .badValue)
      ∧ (first.toNat + points.length ≤ places.length →
          (∀ p ∈ points, p.x.toNat ≤ 1000 ∧ p.y.toNat ≤ 1000) →
        ∃ written : List (Option Point), written.length = places.length
          ∧ (∀ k p, points[k]? = some p →
              written[first.toNat + k]? = some (some ⟨p.x.toNat, p.y.toNat⟩))
          ∧ (∀ j, j < first.toNat ∨ first.toNat + points.length ≤ j → written[j]? = places[j]?)
          ∧ Answers (.curvePoints h first points) h 0x11 s
              { s.taken with editor := ⟨.curve id written, s.now⟩ } .done
              (byte1 (written.countP Option.isSome)))

/-- EDIT_ABORT closes the open session without changing the working show, and offers no EDIT_EXPIRED (R40). -/
def Obligations.EditAbortClosesTheSession : Prop :=
  ∀ (h : Hdr) (s : State), TakesNew h 0x16 s →
    (s.editor.session ≠ .idle →
      Answers (.editAbort h) h 0x16 s { s.taken with editor := { s.editor with session := .idle } } .done [])
    ∧ (s.editor.session = .idle → Refuses (.editAbort h) h 0x16 s .wrongState)

/-- EDIT_COMMIT of a cue: the first check that fails decides, keeps the session and restarts its timer (R42, R45); a
buffer that passes becomes the cue of its number, every other cue stays, and the session closes (R43). -/
def Obligations.CueCommits : Prop :=
  ∀ (h : Hdr) (s : State) (n : Nat) (follow : Option Nat) (actions : List Action), TakesNew h 0x15 s →
    s.editor.session = .cue n follow actions → CueListLaw s.working →
    let old := ((s.working.findCue n).map fun q => q.actions.length).getD 0
    let kept : State := { s.taken with editor := { s.editor with idleFrom := s.now } }
    (actions = [] → Answers (.editCommit h) h 0x15 s kept .incomplete [])
    ∧ (actions ≠ [] → (∃ a ∈ actions, s.working.curve a.curve = none) →
      Answers (.editCommit h) h 0x15 s kept .notFound [])
    ∧ (actions ≠ [] → (∀ a ∈ actions, s.working.curve a.curve ≠ none) →
        s.working.actionsUsed - old + actions.length > 384
          ∨ (s.working.findCue n = none ∧ s.working.cues.length = 64) →
      Answers (.editCommit h) h 0x15 s kept .noSpace [])
    ∧ (actions ≠ [] → (∀ a ∈ actions, s.working.curve a.curve ≠ none) →
        s.working.actionsUsed - old + actions.length ≤ 384 →
        s.working.findCue n ≠ none ∨ s.working.cues.length < 64 →
      ∃ cues : List Cue,
        Answers (.editCommit h) h 0x15 s
          { s.taken with working := { s.working with cues := cues }, editor := { s.editor with session := .idle } }
          .done (byte1 (if (s.working.findCue n).isSome then 1 else 2) ++ byte1 cues.length
            ++ byte2 (384 - (s.working.actionsUsed - old + actions.length)) ++ byte1 s.working.freePoints)
        ∧ (cues.map (·.number)).Pairwise (· < ·)
        ∧ ∀ q, q ∈ cues ↔ q = ⟨n, follow, actions⟩ ∨ (q ∈ s.working.cues ∧ q.number ≠ n))

/-- EDIT_COMMIT of a curve: the first check that fails decides, keeps the session and restarts its timer (R44, R45); a
buffer that passes defines the curve, every other curve stays, and the session closes (R44).

EDIT_COMMIT without a session, and of a curve with a place still empty, are refused; the second restarts the idle
timer (R44, R45). -/
def Obligations.CurveCommits : Prop :=
  (∀ (h : Hdr) (s : State) (k : Fin 15) (points : List Point), TakesNew h 0x15 s →
    s.editor.session = .curve (k.val + 1) (points.map some) → CurveLaw s.working →
    let old := ((Table.at s.working.curves k).map List.length).getD 0
    let kept : State := { s.taken with editor := { s.editor with idleFrom := s.now } }
    let used := s.fade.usesCurve (k.val + 1) || s.player.usesCurve (k.val + 1)
    (shapeOk points = false → Answers (.editCommit h) h 0x15 s kept .badShape [])
    ∧ (shapeOk points = true → used = true → Answers (.editCommit h) h 0x15 s kept .inUse [])
    ∧ (shapeOk points = true → used = false → s.working.pointsUsed - old + points.length > 240 →
      Answers (.editCommit h) h 0x15 s kept .noSpace [])
    ∧ (shapeOk points = true → used = false → s.working.pointsUsed - old + points.length ≤ 240 →
      Answers (.editCommit h) h 0x15 s
        { s.taken with
          working := { s.working with curves := Table.put s.working.curves k (some points) }
          editor := { s.editor with session := .idle } }
        .done ([0] ++ byte1 s.working.cues.length ++ byte2 s.working.freeActions
          ++ byte1 (240 - (s.working.pointsUsed - old + points.length)))))
  ∧ (∀ (h : Hdr) (s : State), TakesNew h 0x15 s →
    (s.editor.session = .idle → Refuses (.editCommit h) h 0x15 s .wrongState)
    ∧ ∀ id places, s.editor.session = .curve id places → none ∈ places →
      Answers (.editCommit h) h 0x15 s { s.taken with editor := { s.editor with idleFrom := s.now } } .incomplete [])

/-- DELETE_CUE takes its cue out of the list and leaves everything else, the work of the cue and the session included;
its actions return to the pool (R32, R46).

DROP_CURVE: its checks in their order, and the curve made undefined with its points returned (R12, R47). -/
def Obligations.DeletesFreeThePools : Prop :=
  (∀ (h : Hdr) (cue : Half) (s : State), TakesNew h 0x17 s →
    (cue.toNat < 1 ∨ 9999 < cue.toNat → Refuses (.deleteCue h cue) h 0x17 s .badValue)
    ∧ (1 ≤ cue.toNat → cue.toNat ≤ 9999 → (∀ q ∈ s.working.cues, q.number ≠ cue.toNat) →
      Refuses (.deleteCue h cue) h 0x17 s .notFound)
    ∧ ∀ q ∈ s.working.cues, q.number = cue.toNat → CueListLaw s.working →
      ∃ cues : List Cue,
        Answers (.deleteCue h cue) h 0x17 s { s.taken with working := { s.working with cues := cues } } .done
          (byte1 (s.working.cues.length - 1) ++ byte2 (384 - (s.working.actionsUsed - q.actions.length)))
        ∧ ∀ x, x ∈ cues ↔ x ∈ s.working.cues ∧ x.number ≠ cue.toNat)
  ∧ (∀ (h : Hdr) (id : Byte) (s : State), TakesNew h 0x18 s →
    (id.toNat < 1 ∨ 15 < id.toNat → Refuses (.dropCurve h id) h 0x18 s .badValue)
    ∧ ∀ k : Fin 15, id.toNat = k.val + 1 →
      (Table.at s.working.curves k = none → Refuses (.dropCurve h id) h 0x18 s .notFound)
      ∧ ∀ points, Table.at s.working.curves k = some points →
        ((∃ c : Chan, ∃ f, (s.chan c).fade = some f ∧ f.curve = id.toNat)
            ∨ (∃ e ∈ s.player.sched, e.curve = id.toNat)
            ∨ (∃ q ∈ s.working.cues, ∃ a ∈ q.actions, a.curve = id.toNat) →
          Refuses (.dropCurve h id) h 0x18 s .inUse)
        ∧ ((∀ c : Chan, ∀ f, (s.chan c).fade = some f → f.curve ≠ id.toNat) →
            (∀ e ∈ s.player.sched, e.curve ≠ id.toNat) →
            (∀ q ∈ s.working.cues, ∀ a ∈ q.actions, a.curve ≠ id.toNat) → CurveLaw s.working →
          Answers (.dropCurve h id) h 0x18 s
            { s.taken with working := { s.working with curves := Table.put s.working.curves k none } } .done
            (byte1 (240 - (s.working.pointsUsed - points.length)))))

/-- READ_CUE and READ_CURVE return up to 5 actions and up to 12 points from an index, and change nothing; curve 0 is
the built-in curve of the two points (0,0) and (1000,1000) (R10, R48, R49).

LIST_CUES returns the pools, the defined curves, the session and up to 24 numbers greater than after, ascending
(R50). -/
def Obligations.ShowReadsAnswer : Prop :=
  ((∀ s : State, s.working.curve 0 = some [⟨0, 0⟩, ⟨1000, 1000⟩])
  ∧ (∀ (h : Hdr) (first : Byte) (s : State),
    (∀ cue : Half, TakesNew h 0x19 s →
      (cue.toNat < 1 ∨ 9999 < cue.toNat → Refuses (.readCue h cue first) h 0x19 s .badValue)
      ∧ (1 ≤ cue.toNat → cue.toNat ≤ 9999 → s.working.findCue cue.toNat = none →
        Refuses (.readCue h cue first) h 0x19 s .notFound)
      ∧ ∀ q, 1 ≤ cue.toNat → cue.toNat ≤ 9999 → s.working.findCue cue.toNat = some q →
        (q.actions.length ≤ first.toNat → Refuses (.readCue h cue first) h 0x19 s .badValue)
        ∧ (first.toNat < q.actions.length → Answers (.readCue h cue first) h 0x19 s s.taken .done
            (byte2 cue.toNat ++ opt4 q.follow ++ byte1 q.actions.length ++ [first]
              ++ byte1 (min 5 (q.actions.length - first.toNat))
              ++ ((q.actions.drop first.toNat).take 5).flatMap Action.bytes)))
    ∧ ∀ id : Byte, TakesNew h 0x1A s →
      (15 < id.toNat → Refuses (.readCurve h id first) h 0x1A s .badValue)
      ∧ (id.toNat ≤ 15 → s.working.curve id.toNat = none → Refuses (.readCurve h id first) h 0x1A s .notFound)
      ∧ ∀ points, id.toNat ≤ 15 → s.working.curve id.toNat = some points →
        (points.length ≤ first.toNat → Refuses (.readCurve h id first) h 0x1A s .badValue)
        ∧ (first.toNat < points.length → Answers (.readCurve h id first) h 0x1A s s.taken .done
            ([id] ++ byte1 points.length ++ [first] ++ byte1 (min 12 (points.length - first.toNat))
              ++ ((points.drop first.toNat).take 12).flatMap Point.bytes))))
  ∧ (∀ (h : Hdr) (after : Half) (s : State), TakesNew h 0x1B s →
    (9999 < after.toNat → Refuses (.listCues h after) h 0x1B s .badValue)
    ∧ (after.toNat ≤ 9999 → ∃ numbers : List Nat,
      numbers = ((s.working.cues.map (·.number)).filter fun n => decide (after.toNat < n)).take 24
      ∧ (CueListLaw s.working → numbers.Pairwise (· < ·))
      ∧ Answers (.listCues h after) h 0x1B s s.taken .done
          (byte1 s.working.cues.length ++ byte2 (384 - s.working.actionsUsed)
            ++ byte1 (240 - s.working.pointsUsed)
            ++ byte2 (maskOf fun k : Fin 16 => (s.working.curve k.val).isSome)
            ++ byte1 s.editor.session.kindCode ++ byte2 s.editor.session.number ++ byte1 numbers.length
            ++ numbers.flatMap byte2)))

/-! ## The player -/

/-- GO takes the smallest number above the position, GO_TO its cue, BACK the largest below (R56 to R58). The cue that
is chosen becomes the position; the follow timer takes its follow, or nothing for BACK; the state is RUNNING while a
live entry or the follow timer stands and WAITING otherwise; the reply carries the cue, the actions skipped as parked
and the state (R59, R61). The entry of the cue stands at the tail of the live cue list and counts what the cue owns,
with its cut flag kept (R59 step 3, R70); what becomes of channels and scheduled starts is that of
GoActsOnItsChannels.

From the source HOST no CUE_STARTED is offered (R78): CUE_DONE(n, CUT) is, for each cue whose last item the GO took
over, DIRECT_DONE(tag, CUT) for each such tag, and last CUE_DONE of the cue itself if it owns nothing (R59 step 7,
R60, R72, R79, R90).

GO and BACK with no cue beyond or below the position, GO_TO of a number that is no cue's, and GO_TO of a number out of
range are refused and change nothing of the player (R56, R57, R58). -/
def Obligations.GoStartsTheChosenCue : Prop :=
  (∀ (h : Hdr) (c : Instr) (kind : Byte) (k : GoKind) (q : Cue) (s : State), CueListLaw s.working → PositionLaw s →
    q ∈ s.working.cues → TakesNew h kind s →
    (c = .go h ∧ kind = 0x20 ∧ k = .go) ∨ (∃ n : Half, c = .goTo h n ∧ kind = 0x21 ∧ k = .goTo n.toNat)
      ∨ (c = .back h ∧ kind = 0x22 ∧ k = .back) →
    Chosen k q s →
    ∃ t, Answers c h kind s t .done (byte2 q.number ++ byte1 (s.skipped q) ++ byte1 t.player.state.code)
      ∧ GoStarts k q .host s.taken t)
  ∧ (∀ (h : Hdr) (n : Half) (s : State),
    (TakesNew h 0x20 s → (∀ q ∈ s.working.cues, q.number ≤ s.player.position) → Refuses (.go h) h 0x20 s .endOfList)
    ∧ (TakesNew h 0x22 s → (∀ q ∈ s.working.cues, s.player.position ≤ q.number) →
      Refuses (.back h) h 0x22 s .endOfList)
    ∧ (TakesNew h 0x21 s → n.toNat < 1 ∨ 9999 < n.toNat → Refuses (.goTo h n) h 0x21 s .badValue)
    ∧ (TakesNew h 0x21 s → 1 ≤ n.toNat → n.toNat ≤ 9999 → (∀ q ∈ s.working.cues, q.number ≠ n.toNat) →
      Refuses (.goTo h n) h 0x21 s .notFound))

/-- What GO, GO_TO and BACK do to the channels and the scheduled starts (R18 to R20, R59 step 2): an action on a
parked channel does nothing; one without delay starts a fade from the present level, or sets the level; one with a
delay waits as a scheduled start; the older scheduled starts of the channels acted on go; every other channel and
scheduled start stays, thawed if the player was PAUSED (R9). BACK runs every action with back_time and without delay
(R58).

The scheduled starts that stay keep their order, and each new one stands behind all that have as little time left or
less, those of this cue with equal delays in the order of their actions (R62, R63). -/
def Obligations.GoActsOnItsChannels : Prop :=
  ∀ (h : Hdr) (c : Instr) (kind : Byte) (k : GoKind) (q : Cue) (s t : State) (st : Status) (data : List Byte),
    CueListLaw s.working → q ∈ s.working.cues → TakesNew h kind s →
    (c = .go h ∧ kind = 0x20 ∧ k = .go) ∨ (∃ n : Half, c = .goTo h n ∧ kind = 0x21 ∧ k = .goTo n.toNat)
      ∨ (c = .back h ∧ kind = 0x22 ∧ k = .back) →
    Chosen k q s → Answers c h kind s t st data →
    let acts : Sched → Bool := fun e =>
      q.actions.any fun a => decide (a.channel = e.channel ∧ (s.chan a.channel).park = none)
    GoActs k q s t
      ∧ ((s.player.sched.filter fun e => !acts e).map fun e =>
          if s.player.state = .paused then { e with left := ⟨e.left.remaining, s.now⟩ } else e)
        = t.player.sched.filter (fun e => !acts e)
      ∧ (SchedLaw s → t.player.sched.Pairwise fun a b => a.left.leftAt s.now < b.left.leftAt s.now
          ∨ (a.left.leftAt s.now = b.left.leftAt s.now ∧ (acts a = true → acts b = true ∧ a.channel < b.channel)))

/-- PAUSE of a RUNNING or WAITING player freezes the cue-owned contexts at this instant with their running time added,
holds the countdowns, and records what it interrupted; of a PAUSED player it does nothing, of a STOPPED one it is
refused (R8, R73).

RESUME of a PAUSED player thaws the frozen contexts and the countdowns from this instant, and the state is judged from
the collections; in any other state it is refused (R9, R75). -/
def Obligations.PauseAndResume : Prop :=
  (∀ (h : Hdr) (s : State), TakesNew h 0x23 s →
    (∀ was, (s.player.state = .running ∧ was = .running) ∨ (s.player.state = .waiting ∧ was = ResumeTo.waiting) →
      ∃ t, Answers (.pause h) h 0x23 s t .done (byte1 3 ++ byte1 (resumeCode (some was)))
        ∧ (∀ c : Chan, t.chan c = { s.chan c with fade := (s.chan c).fade.map fun f =>
            match f.owner with
            | .cue _ => if f.frozen then f
                else { f with elapsed := f.elapsed + since s.now f.lastAdvance, lastAdvance := s.now, frozen := true }
            | .direct _ => f
            | .release => f })
        ∧ t.player = { s.player with
            state := .paused
            resumeTo := some was
            sched := s.player.sched.map fun e => { e with left := ⟨e.left.leftAt s.now, s.now⟩ }
            follow := s.player.follow.map fun f => ⟨f.leftAt s.now, s.now⟩ }
        ∧ t = { s.taken with fade := { s.fade with chans := t.fade.chans }, player := t.player })
    ∧ (s.player.state = .paused →
      Answers (.pause h) h 0x23 s s.taken .done (byte1 3 ++ byte1 (resumeCode s.player.resumeTo)))
    ∧ (s.player.state = .stopped → Refuses (.pause h) h 0x23 s .wrongState))
  ∧ (∀ (h : Hdr) (s : State), TakesNew h 0x24 s →
    (s.player.state = .paused →
      ∃ t, Answers (.resume h) h 0x24 s t .done
          (byte1 (if s.player.live ≠ [] ∨ s.player.follow.isSome then 1 else 2))
        ∧ (∀ c : Chan, t.chan c = { s.chan c with fade := (s.chan c).fade.map fun f =>
            if f.frozen then { f with frozen := false, lastAdvance := s.now } else f })
        ∧ t.player = { s.player with
            state := if s.player.live ≠ [] ∨ s.player.follow.isSome then .running else .waiting
            resumeTo := none
            sched := s.player.sched.map fun e => { e with left := ⟨e.left.remaining, s.now⟩ }
            follow := s.player.follow.map fun f => ⟨f.remaining, s.now⟩ }
        ∧ t = { s.taken with fade := { s.fade with chans := t.fade.chans }, player := t.player })
    ∧ (s.player.state ≠ .paused → Refuses (.resume h) h 0x24 s .wrongState))

/-- RELEASE ends playback and takes every unparked channel that is lit or fading to 0, at once or over its time (R76).
It offers CUE_DONE(n, CUT) for every live entry, oldest first, to the report unit and to the arm monitor (R76 step 3,
R106), and then DIRECT_DONE(tag, CUT) for every tag whose last fade it took over (R90). -/
def Obligations.ReleaseEndsPlayback : Prop :=
  ∀ (h : Hdr) (time : Half) (s : State), TakesNew h 0x25 s →
    (60000 < time.toNat → Refuses (.release h time) h 0x25 s .badValue)
    ∧ (time.toNat ≤ 60000 →
      let lit : Chan → Bool := fun c =>
        decide ((s.chan c).park = none ∧ (0 < (s.chan c).level ∨ (s.chan c).fade ≠ none))
      ∃ t, Answers (.release h time) h 0x25 s t .done
          (byte1 s.player.live.length ++ byte1 ((List.finRange 24).countP lit))
        ∧ t.player = ⟨.stopped, 0, none, none, [], []⟩
        ∧ (∀ c : Chan, lit c = false → t.chan c = s.chan c)
        ∧ (∀ c : Chan, lit c = true → time = 0 → t.chan c = ⟨0, none, none, .owned .release⟩)
        ∧ (∀ c : Chan, lit c = true → time ≠ 0 → t.chan c = ⟨(s.chan c).level, none,
            some ⟨(s.chan c).level, 0, 0, time.toNat, 0, s.now, .release, false⟩, .owned .release⟩)
        ∧ (∃ tags : List Report,
            Offers (s.player.live.map (fun e => .cueDone e.cue .cut) ++ tags) s.taken t
            ∧ (∀ d ∈ tags, ∃ g, d = .directDone g .cut)
            ∧ ∀ g, .directDone g .cut ∈ tags ↔
              (∃ b ∈ s.fade.tags, b.tag = g) ∧ ∀ b ∈ t.fade.tags, b.tag ≠ g)
        ∧ t.fade.master = s.fade.master ∧ t.fade.masterCtx = s.fade.masterCtx
        ∧ OnlyPlayback s.taken t)

/-- A scheduled start that is due leaves the list and starts its fade, or sets its channel's level, for its cue; no
other channel changes (R64). A start that is not due, or held by a pause, waits (R63).

Where it sets the level of a channel without a fade and was its cue's last item, CUE_DONE is offered, COMPLETED or by
the cut flag CUT (R64, R71, R72, R79); where it takes a fade over, set or started, what ends with that fade is
reported CUT, CUE_DONE of a cue as well as DIRECT_DONE of a tag (R19, R20, R72, R90). -/
def Obligations.ScheduledStartExpires : Prop :=
  ∀ (s : State) (e : Sched) (rest : List Sched), s.phase = .running → s.player.sched = e :: rest →
    (s.player.state ≠ .paused → e.left.remaining ≤ since s.now e.left.lastAdvance → (s.chan e.channel).park = none →
      ∃ t, exec .scheduledStartExpiry s = .next t ∧ t.player.sched = rest
        ∧ (e.time ≠ 0 → t.chan e.channel = ⟨(s.chan e.channel).level, none,
            some ⟨(s.chan e.channel).level, e.target, e.curve, e.time, 0, s.now, .cue e.owner, false⟩,
            .owned (.cue e.owner)⟩)
        ∧ (e.time = 0 → t.chan e.channel = ⟨e.target, none, none, .owned (.cue e.owner)⟩)
        ∧ (∀ c, c ≠ e.channel → t.chan c = s.chan c)
        ∧ (∀ x, s.player.live.find? (·.cue == e.owner) = some x → (s.chan e.channel).fade = none →
            (e.time = 0 → x.count = 1 → Offers [.cueDone e.owner (byFlag x.cut)] s t)
            ∧ (e.time ≠ 0 ∨ 2 ≤ x.count → Offers [] s t))
        ∧ (e.time ≠ 0 → ∃ ended, EndsReported .none allCut ended s t ∧ Offers ended s t)
        ∧ (e.time = 0 → ∃ (ended : List Report) (how : How),
            EndsReported ⟨some e.owner, none⟩ allCut ended s t
            ∧ (∀ x, s.player.live.find? (·.cue == e.owner) = some x → how
              = if x.cut = true ∨ ∃ f, (s.chan e.channel).fade = some f ∧ f.owner = .cue e.owner then .cut
                else .completed)
            ∧ Offers (ended ++ if (∃ x ∈ s.player.live, x.cue = e.owner) ∧ ∀ x ∈ t.player.live, x.cue ≠ e.owner
                then [.cueDone e.owner how] else []) s t)
        ∧ t.player.position = s.player.position ∧ t.player.follow = s.player.follow
        ∧ OnlyPlayback s t)
    ∧ (s.player.state = .paused ∨ since s.now e.left.lastAdvance < e.left.remaining →
      exec .scheduledStartExpiry s = .next s)

/-- A follow timer that is due is consumed and starts the next cue above the position with source FOLLOW; with none,
LIST_END is offered, the timer stays cleared, and the state is WAITING if no cue is live (R68, R78, R80). -/
def Obligations.FollowStartsTheNextCue : Prop :=
  ∀ (s : State) (f : Countdown), s.phase = .running → s.player.follow = some f → CueListLaw s.working → PositionLaw s →
    let consumed : State := { s with player := { s.player with follow := none } }
    (s.player.state ≠ .paused → f.remaining ≤ since s.now f.lastAdvance →
      (∀ q ∈ s.working.cues, Chosen .go q s →
        ∃ t, exec .followExpiry s = .next t ∧ GoStarts .go q .follow consumed t)
      ∧ ((∀ q ∈ s.working.cues, q.number ≤ s.player.position) →
        exec .followExpiry s = .next { s with
          player := { s.player with
            follow := none
            state := if s.player.live = [] then .waiting else s.player.state }
          report := s.report.offer s.working.params.reportEnable s.now (.listEnd s.player.position .follow) }))
    ∧ (s.player.state = .paused ∨ since s.now f.lastAdvance < f.remaining → exec .followExpiry s = .next s)

/-- READ_PLAYER returns the common items and a page of the part asked for, and changes nothing; a first above the
part's count and an unknown part are refused (R82, R83).

READ_CHANNELS returns the master, the masks and up to four channels, with the progress a fade has at this instant, and
changes nothing (R100, R101). The last owner of a DIRECT fade is read with its tag (log entry 14).

READ_ARM returns the two masks and one slot, its fields 0 when EMPTY, and changes nothing (R114, R203); that slot k
stands in bit k of the masks is the model's choice (log entry 34). -/
def Obligations.PlaybackReadsAnswer : Prop :=
  (∀ (h : Hdr) (part first : Byte) (s : State), TakesNew h 0x26 s →
    let left : Countdown → Nat := fun c =>
      if s.player.state = .paused then c.remaining else c.remaining - since s.now c.lastAdvance
    let common := byte1 s.player.state.code ++ byte2 s.player.position
      ++ byte2 (((s.working.cues.find? fun q => decide (s.player.position < q.number)).map (·.number)).getD 0)
      ++ byte1 (resumeCode s.player.resumeTo) ++ opt4 (s.player.follow.map left)
      ++ byte1 s.player.sched.length ++ byte1 s.player.live.length
    (part = 0 → first.toNat ≤ s.player.live.length → ∃ entries : List Live,
        entries = (s.player.live.drop first.toNat).take 10
        ∧ Answers (.readPlayer h part first) h 0x26 s s.taken .done
            (common ++ byte1 entries.length
              ++ entries.flatMap fun e => byte2 e.cue ++ byte1 e.count ++ byte1 (flag e.cut)))
    ∧ (part = 1 → first.toNat ≤ s.player.sched.length → ∃ entries : List Sched,
        entries = (s.player.sched.drop first.toNat).take 3
        ∧ Answers (.readPlayer h part first) h 0x26 s s.taken .done
            (common ++ byte1 entries.length ++ entries.flatMap fun e =>
              byte1 (e.channel.val + 1) ++ byte2 e.owner ++ byte2 e.target ++ byte4 e.time ++ byte1 e.curve
                ++ byte2 (left e.left)))
    ∧ (1 < part.toNat ∨ (part = 0 ∧ s.player.live.length < first.toNat)
        ∨ (part = 1 ∧ s.player.sched.length < first.toNat) →
      Refuses (.readPlayer h part first) h 0x26 s .badValue))
  ∧ (∀ (h : Hdr) (first count : Byte) (s : State), TakesNew h 0x35 s →
    (1 ≤ first.toNat → 1 ≤ count.toNat → count.toNat ≤ 4 → first.toNat + count.toNat ≤ 25 →
      Answers (.readChannels h first count) h 0x35 s s.taken .done
        (byte2 s.fade.master ++ opt2 (s.fade.masterCtx.map (·.target))
          ++ opt2 (s.fade.masterCtx.map fun m => m.duration - (m.elapsed + since s.now m.lastAdvance))
          ++ byte1 (flags2 s.comp.hostBlackout s.comp.lineBlackout)
          ++ byte3 (maskOf fun c : Chan => decide ((s.chan c).park ≠ none))
          ++ byte3 (maskOf fun c : Chan => decide ((s.chan c).fade ≠ none))
          ++ byte1 s.fade.tags.length
          ++ (((List.finRange 24).drop (first.toNat - 1)).take count.toNat).flatMap fun c =>
            byte2 (s.chan c).level ++ byte2 (s.chan c).lastOwner.code
              ++ match (s.chan c).fade with
                | none => [0, 0, 0xFF, 0xFF, 0xFF, 0xFF]
                | some f => byte2 f.owner.code ++ byte2 f.target
                    ++ byte2 (if f.frozen then 32768 + timeFraction f.elapsed f.duration
                        else timeFraction (f.elapsed + since s.now f.lastAdvance) f.duration)))
    ∧ (first.toNat < 1 ∨ count.toNat < 1 ∨ 4 < count.toNat ∨ 25 < first.toNat + count.toNat →
      Refuses (.readChannels h first count) h 0x35 s .badValue))
  ∧ (∀ (h : Hdr) (k : Fin 8) (s : State), TakesNew h 0x3A s →
    Answers (.readArm h (BitVec.ofNat 8 k.val)) h 0x3A s s.taken .done
      (byte1 (maskOf fun j : Fin 8 => (Table.at s.working.arms j).isSome)
        ++ byte1 (maskOf fun j : Fin 8 => Table.at s.arm.fired j) ++ byte1 k.val
        ++ (match Table.at s.working.arms k with
          | some d => byte1 1 ++ byte1 d.mode.code ++ d.condition.bytes ++ d.action.bytes
          | none => List.replicate 18 0)
        ++ opt2 (Table.at s.arm.memory k)))

/-! ## Direct control -/

/-- FADE of a mask with a channel that is not parked (R87, R88): each such channel starts a DIRECT fade from its
present level, or is set at once, and loses its scheduled start; its last owner keeps the tag (log entry 14); parked
channels and channels outside the mask stay; the reply counts what was done and says whether the tag is outstanding.

CUE_DONE(n, CUT) is offered for each cue whose last item the FADE took over or removed, DIRECT_DONE(tag, CUT) for each
other tag, and last DIRECT_DONE of its own tag if no fade carries it: COMPLETED, or CUT if the tag was outstanding
before (R72, R90 to R92).

A FADE is refused by the first of its checks that fails, and then changes nothing (R86). -/
def Obligations.FadeActsOnItsChannels : Prop :=
  (∀ (h : Hdr) (mask : ChanMask) (target : Half) (time : Word) (curve tag : Byte) (s : State),
    TakesNew h 0x30 s → target.toNat ≤ 4095 → time.toNat ≤ 600000 → curve.toNat ≤ 15 →
    (s.working.curve curve.toNat).isSome →
    let free : Chan → Bool := fun c => mask.getLsbD c.val && decide ((s.chan c).park = none)
    (∃ c, free c = true) →
    ∃ t, Answers (.fade h mask target time curve tag) h 0x30 s t .done
        (byte1 (if time = 0 then 0 else (List.finRange 24).countP free)
          ++ byte1 (if time = 0 then (List.finRange 24).countP free else 0)
          ++ byte1 ((List.finRange 24).countP fun c => mask.getLsbD c.val && decide ((s.chan c).park ≠ none))
          ++ byte1 (if tag ≠ 0 ∧ 1 ≤ t.fade.tagged tag.toNat then 1 else 0))
      ∧ (∀ c, free c = false → t.chan c = s.chan c)
      ∧ (∀ c, free c = true → time = 0 → t.chan c = ⟨target.toNat, none, none, .owned (.direct tag.toNat)⟩)
      ∧ (∀ c, free c = true → time ≠ 0 → t.chan c = ⟨(s.chan c).level, none,
          some ⟨(s.chan c).level, target.toNat, curve.toNat, time.toNat, 0, s.now, .direct tag.toNat, false⟩,
          .owned (.direct tag.toNat)⟩)
      ∧ t.player.sched = s.player.sched.filter (fun e => !free e.channel)
      ∧ t.player.position = s.player.position ∧ t.player.follow = s.player.follow
      ∧ t.fade.master = s.fade.master ∧ t.fade.masterCtx = s.fade.masterCtx
      ∧ (∃ (ended : List Report) (how : How), EndsReported ⟨none, some tag.toNat⟩ allCut ended s t
          ∧ (TagLaw s → how = if ∃ b ∈ s.fade.tags, b.tag = tag.toNat then .cut else .completed)
          ∧ Offers (ended ++ if tag ≠ 0 ∧ t.fade.tagged tag.toNat = 0 then [.directDone tag.toNat how] else [])
              s.taken t)
      ∧ OnlyPlayback s.taken t)
  ∧ (∀ (h : Hdr) (mask : ChanMask) (target : Half) (time : Word) (curve tag : Byte) (s : State), TakesNew h 0x30 s →
    (mask = 0 ∨ 4095 < target.toNat ∨ 600000 < time.toNat ∨ 15 < curve.toNat →
      Refuses (.fade h mask target time curve tag) h 0x30 s .badValue)
    ∧ (mask ≠ 0 → target.toNat ≤ 4095 → time.toNat ≤ 600000 → curve.toNat ≤ 15 →
      (s.working.curve curve.toNat = none → Refuses (.fade h mask target time curve tag) h 0x30 s .notFound)
      ∧ ((s.working.curve curve.toNat).isSome →
          (∀ c : Chan, mask.getLsbD c.val = true → (s.chan c).park ≠ none) →
        Refuses (.fade h mask target time curve tag) h 0x30 s .parked)))

/-- PARK fixes each channel of its mask at its level, cuts its fade and removes its scheduled start; the channels
outside the mask stay (R2, R93). What ends with them is reported CUT: CUE_DONE for a cue, DIRECT_DONE for a tag (R72,
R90).

UNPARK makes the park of each channel of its mask absent, keeps level and last owner, and touches no accounting
(R95). -/
def Obligations.ParkAndUnpark : Prop :=
  (∀ (h : Hdr) (mask : ChanMask) (level : Half) (s : State), TakesNew h 0x31 s →
    (mask = 0 ∨ 4095 < level.toNat → Refuses (.park h mask level) h 0x31 s .badValue)
    ∧ (mask ≠ 0 → level.toNat ≤ 4095 →
      let named : Chan → Bool := fun c => mask.getLsbD c.val
      ∃ t, Answers (.park h mask level) h 0x31 s t .done
          (byte1 ((List.finRange 24).countP fun c => named c && decide ((s.chan c).park = none))
            ++ byte1 ((List.finRange 24).countP fun c => named c && decide ((s.chan c).park ≠ none))
            ++ byte1 ((List.finRange 24).countP fun c => named c && decide ((s.chan c).fade ≠ none)))
        ∧ (∀ c, named c = true → t.chan c = ⟨level.toNat, some level.toNat, none, .park⟩)
        ∧ (∀ c, named c = false → t.chan c = s.chan c)
        ∧ t.player.sched = s.player.sched.filter (fun e => !named e.channel)
        ∧ t.player.position = s.player.position ∧ t.player.follow = s.player.follow
        ∧ t.fade.master = s.fade.master ∧ t.fade.masterCtx = s.fade.masterCtx
        ∧ (∃ ended, EndsReported .none allCut ended s t ∧ Offers ended s.taken t)
        ∧ OnlyPlayback s.taken t))
  ∧ (∀ (h : Hdr) (mask : ChanMask) (s : State), TakesNew h 0x32 s →
    (mask = 0 → Refuses (.unpark h mask) h 0x32 s .badValue)
    ∧ (mask ≠ 0 → ∃ chans : Table Channel 24,
      Answers (.unpark h mask) h 0x32 s { s.taken with fade := { s.fade with chans := chans } } .done
        (byte1 ((List.finRange 24).countP fun c => mask.getLsbD c.val && decide ((s.chan c).park ≠ none)))
      ∧ (∀ c : Chan, mask.getLsbD c.val = true → Table.at chans c = { s.chan c with park := none })
      ∧ ∀ c : Chan, mask.getLsbD c.val = false → Table.at chans c = s.chan c))

/-- SET_MASTER sets the master at once or starts a master fade from its present value, in place of any other, and
SET_BLACKOUT sets or clears the host flag alone (R97, R99). -/
def Obligations.MasterAndBlackout : Prop :=
  ∀ (h : Hdr) (s : State),
    (∀ level time : Half, TakesNew h 0x33 s →
      (1000 < level.toNat ∨ 60000 < time.toNat → Refuses (.setMaster h level time) h 0x33 s .badValue)
      ∧ (level.toNat ≤ 1000 → time = 0 → Answers (.setMaster h level time) h 0x33 s
          { s.taken with fade := { s.fade with master := level.toNat, masterCtx := none } } .done
          (byte2 level.toNat ++ byte2 level.toNat))
      ∧ (level.toNat ≤ 1000 → time ≠ 0 → time.toNat ≤ 60000 → Answers (.setMaster h level time) h 0x33 s
          { s.taken with fade := { s.fade with
            masterCtx := some ⟨s.fade.master, level.toNat, time.toNat, 0, s.now⟩ } } .done
          (byte2 s.fade.master ++ byte2 level.toNat)))
    ∧ ∀ state : Byte, TakesNew h 0x34 s →
      (1 < state.toNat → Refuses (.setBlackout h state) h 0x34 s .badValue)
      ∧ ∀ on : Bool, state = (if on then 1 else 0) →
        Answers (.setBlackout h state) h 0x34 s { s.taken with comp := { s.comp with hostBlackout := on } } .done
          [if on then 1 else 0, if s.comp.lineBlackout then 1 else 0]

/-! ## Armed actions -/

/-- ARM of a slot 0 to 7 with a mode, a condition and an action in range writes the slot, with its memory taken from
the node at this instant and its flag cleared, and leaves the other slots (R111, R112); DISARM empties a slot and
clears its flag, of an EMPTY slot too (R102, R113; the model's reading, log entry 26).

ARM of a slot above 7, or with bytes that no mode, condition and action in range are written as, is refused and leaves
every slot; so are DISARM and READ_ARM of a slot above 7 (R111, R113, R114). -/
def Obligations.ArmAndDisarmWriteASlot : Prop :=
  (∀ (h : Hdr) (k : Fin 8) (s : State),
    let was := byte1 (flag (Table.at s.working.arms k).isSome)
    let written (d : Option ArmDef) (memory : Option Nat) : State := { s.taken with
      working := { s.working with arms := Table.put s.working.arms k d }
      arm := { s.arm with memory := Table.put s.arm.memory k memory, fired := Table.put s.arm.fired k false } }
    (∀ d : ArmDef, TakesNew h 0x38 s → d.condition.inRange → d.action.inRange →
      let memory : Option Nat := match d.condition with
        | .levelCross c _ _ => some (s.chan c).level
        | .fadeProgress c _ => (s.chan c).fade.map fun f =>
            if f.frozen then timeFraction f.elapsed f.duration
            else timeFraction (f.elapsed + since s.now f.lastAdvance) f.duration
        | .inputEdge _ _ => none
        | .cueComplete _ => none
      Answers (.arm h (BitVec.ofNat 8 k.val) (BitVec.ofNat 8 d.mode.code) d.condition.bytes d.action.bytes) h 0x38 s
        (written (some d) memory) .done (byte1 k.val ++ was ++ opt2 memory))
    ∧ (TakesNew h 0x39 s →
      Answers (.disarm h (BitVec.ofNat 8 k.val)) h 0x39 s (written none none) .done was))
  ∧ (∀ (h : Hdr) (slot mode : Byte) (condition action : List Byte) (s : State),
    (TakesNew h 0x38 s → condition.length = 5 → action.length = 11 →
      7 < slot.toNat ∨ (¬ ∃ d : ArmDef, d.condition.inRange ∧ d.action.inRange
        ∧ mode = BitVec.ofNat 8 d.mode.code ∧ condition = d.condition.bytes ∧ action = d.action.bytes) →
      Refuses (.arm h slot mode condition action) h 0x38 s .badValue)
    ∧ (TakesNew h 0x39 s → 7 < slot.toNat → Refuses (.disarm h slot) h 0x39 s .badValue)
    ∧ (TakesNew h 0x3A s → 7 < slot.toNat → Refuses (.readArm h slot) h 0x3A s .badValue))

/-- The oldest CUE_DONE at the arm monitor is taken (R106, R108, R110; that the oldest is first is log entry 15): a
slot that watches for that cue and whose flag is clear fires once, and the others keep their flags and contents; a
slot in mode ONCE that fires becomes EMPTY.

The slots fire in ascending order, each whole before the next (R110 step 3): its action runs through the operation of
the message of its name, GO, GO_TO and BACK with source ARM, and then ARM_FIRED is offered with the slot, the action
and the status of that operation (R107 to R109); the CUE_DONEs of the action are to be taken before the next snapshot
(R110). -/
def Obligations.CueDoneFiresItsSlots : Prop :=
  ∀ (s : State) (a : Arrival) (rest : List Arrival), s.phase = .running → s.arm.inbox = a :: rest →
    let fires : Fin 8 → Bool := fun k => !Table.at s.arm.fired k && match Table.at s.working.arms k with
      | some d => d.condition == .cueComplete a.cue
      | none => false
    ∃ t, exec .armCueDoneArrival s = .next t ∧ (∃ more, t.arm.inbox = rest ++ more ∧ ∀ x ∈ more, x.ahead = true)
      ∧ OnlyArmed s t
      ∧ (∀ k : Fin 8, Table.at t.arm.fired k = (Table.at s.arm.fired k || fires k)
          ∧ Table.at t.working.arms k = match Table.at s.working.arms k with
            | some d => if fires k && (d.mode == .once) then none else some d
            | none => none)
      ∧ ((∀ k, fires k = false) → t = { s with arm := { s.arm with inbox := rest } })
      ∧ FireAll fires { s with arm := { s.arm with inbox := rest } } t

/-- The snapshot of a frame event at the arm monitor (R104, R105, R110): every flag is cleared, each LEVEL_CROSS and
each FADE_PROGRESS slot is judged by its memory and the snapshot, its memory becomes what the snapshot shows, and the
slots that are satisfied fire: their flags alone are set after it, and a ONCE slot is EMPTY. They fire in ascending
order from the state with every flag clear, each running its action and offering ARM_FIRED before the next (R107 to
R110). The other slots are not judged; a CUE_COMPLETE slot may have been emptied by a CUE_DONE that came before the
snapshot.

The CUE_DONEs of this frame event's completions and of earlier firings have been taken before the snapshot, and those
that wait for either order go on waiting; what the firings at the snapshot caused waits behind them (R110, R117, log
entry 15). -/
def Obligations.SnapshotFiresItsSlots : Prop :=
  ∀ s : State, s.phase = .running → s.clock.frameTimer = some 0 →
    ∃ t p, exec .frameEvent s = .next t ∧ t.fade.snapshot = some p
      ∧ (∀ (k : Fin 8) (d : ArmDef), Table.at s.working.arms k = some d →
        let after (fires : Bool) (memory : Option Nat) : Prop :=
          Table.at t.arm.fired k = fires
            ∧ Table.at t.working.arms k = (if fires && (d.mode == .once) then none else some d)
            ∧ Table.at t.arm.memory k = if fires && (d.mode == .once) then none else memory
        (∀ c threshold prev, d.condition = .levelCross c threshold .up → Table.at s.arm.memory k = some prev →
          after (decide (prev < threshold ∧ threshold ≤ Table.at p.levels c)) (some (Table.at p.levels c)))
        ∧ (∀ c threshold prev, d.condition = .levelCross c threshold .down → Table.at s.arm.memory k = some prev →
          after (decide (Table.at p.levels c < threshold ∧ threshold ≤ prev)) (some (Table.at p.levels c)))
        ∧ (∀ c value, d.condition = .fadeProgress c value →
          after (decide ((∀ prev, Table.at s.arm.memory k = some prev → prev < value)
              ∧ ∃ new, Table.at p.progress c = some new ∧ value ≤ new)) (Table.at p.progress c))
        ∧ (∀ i edge, d.condition = .inputEdge i edge → after false (Table.at s.arm.memory k))
        ∧ ∀ n, d.condition = .cueComplete n → Table.at t.arm.fired k = false
          ∧ (Table.at t.working.arms k = some d ∨ (d.mode = .once ∧ Table.at t.working.arms k = none)))
      ∧ (∀ k : Fin 8, Table.at s.working.arms k = none →
          Table.at t.working.arms k = none ∧ Table.at t.arm.fired k = false)
      ∧ (∃ more, t.arm.inbox = s.arm.inbox.filter (fun a => !a.ahead) ++ more ∧ ∀ a ∈ more, a.ahead = true)
      ∧ ((∀ x ∈ firing (Table.at t.arm.fired) s.working, x.2.action.inRange) → CueListLaw s.working → PositionLaw s →
          ∃ u : State, (∀ j : Fin 8, Table.at u.arm.fired j = false) ∧ u.fade.snapshot = some p
            ∧ (∀ x ∈ firing (Table.at t.arm.fired) s.working, Table.at u.working.arms x.1 = some x.2)
            ∧ FireInOrder (firing (Table.at t.arm.fired) s.working) u t)

/-! ## Reports and show memory -/

/-- An offer that the mask excludes changes nothing; an INPUT_CHANGE merges into the unsent one; an offer to a full
queue is counted as lost, up to 255; any other is appended with the next sequence and a clear sent flag (R151 to
R155).

POLL settles its acknowledgement and carries the head (R156, R157): an ack that names the sent head removes it, and
OVERFLOW takes the place if offers were lost; any other ack removes nothing. The head, if there is one, is carried and
marked as sent; it stays in the queue.

ATTN# is pulled low exactly while the part runs and its queue holds a record (R160; as a function of the state, log
entry 30).

A record is 12 bytes (R210): sequence, kind, time, and six data bytes laid out by the kind with the codes of its
fields (R176, R203, R207), those not used being 0. That LIST_END writes its source as CUE_STARTED does is the model's
choice (log entry 33). -/
def Obligations.ReportsAreQueuedAndPolled : Prop :=
  (∀ (mask : BitVec 9) (now : Time) (d : Report) (u : ReportUnit), u.nextSeq ≤ 255 →
    let masked : Prop := 2 ≤ d.kindCode ∧ d.kindCode ≤ 10 ∧ mask.getLsbD (d.kindCode - 2) = false
    let merges : Prop := d.kindCode = 7 ∧ ∃ r ∈ u.queue, r.data.kindCode = 7 ∧ r.sent = false
    (masked → u.offer mask now d = u)
    ∧ (¬ masked → ¬ merges → u.queue.length < 32 →
      u.offer mask now d = ⟨u.queue ++ [⟨u.nextSeq, now, d, false⟩],
        if u.nextSeq = 255 then 1 else u.nextSeq + 1, u.lost⟩)
    ∧ (¬ masked → ¬ merges → 32 ≤ u.queue.length → u.lost ≤ 255 →
      u.offer mask now d = { u with lost := if u.lost = 255 then 255 else u.lost + 1 })
    ∧ ∀ before after : List Record, ∀ r : Record, ∀ c l o changed levels overrun : BitVec 4,
      ¬ masked → d = .inputChange changed levels overrun → u.queue = before ++ r :: after → r.sent = false →
      r.data = .inputChange c l o → (∀ x ∈ before, ¬ (x.data.kindCode = 7 ∧ x.sent = false)) →
      u.offer mask now d = { u with queue := before ++
        { r with time := now, data := .inputChange (c ||| changed) levels (o ||| (changed &&& c)) } :: after })
  ∧ (∀ (h : Hdr) (ack : Byte) (s : State), TakesNew h 0x3C s →
    let u := s.taken.report
    let settled : ReportUnit :=
      match u.queue with
      | r :: rest =>
        if r.sequence = ack.toNat ∧ r.sent = true then
          if 1 ≤ u.lost then
            ⟨rest ++ [⟨u.nextSeq, s.now, .overflow u.lost, false⟩],
              if u.nextSeq = 255 then 1 else u.nextSeq + 1, 0⟩
          else ⟨rest, u.nextSeq, u.lost⟩
        else u
      | [] => u
    u.nextSeq ≤ 255 →
    (∀ r rest, settled.queue = r :: rest → Answers (.poll h ack) h 0x3C s
      { s.taken with report := ⟨{ r with sent := true } :: rest, settled.nextSeq, settled.lost⟩ } .done
      (byte1 (rest.length + 1) ++ byte1 settled.lost ++ r.bytes))
    ∧ (settled.queue = [] → Answers (.poll h ack) h 0x3C s { s.taken with report := settled } .done
      ([0] ++ byte1 settled.lost)))
  ∧ (∀ s : State, s.attention = true ↔ s.phase = .running ∧ ∃ r, r ∈ s.report.queue)
  ∧ (∀ (sequence : Nat) (time : Time) (sent : Bool),
    let laid (kind : Byte) (d : Report) (data : List Byte) : Prop :=
      (⟨sequence, time, d, sent⟩ : Record).bytes
        = [BitVec.ofNat 8 sequence, kind] ++ byte4 time.toNat ++ data ++ List.replicate (6 - data.length) 0
    (∀ (reason : Reason) (code : Byte) (g : Nat),
        (reason, code) ∈ [(Reason.power, (0 : Byte)), (.pin, 1), (.cold, 2), (.warm, 3)] →
        laid 1 (.startup reason none g) ([code, 0xFF] ++ byte4 g)
          ∧ ∀ b : Bank, laid 1 (.startup reason (some b) g) ([code, BitVec.ofNat 8 b.val] ++ byte4 g))
    ∧ (∀ (n skipped : Nat) (source : Source) (code : Byte),
        (source, code) ∈ [(Source.group, (1 : Byte)), (.arm, 2), (.follow, 3), (.input, 4), (.silence, 5)] →
        laid 2 (.cueStarted n skipped source) (byte2 n ++ [BitVec.ofNat 8 skipped, code]))
    ∧ (∀ (n tag : Nat) (how : How) (code : Byte), (how, code) ∈ [(How.completed, (0 : Byte)), (.cut, 1)] →
        laid 3 (.cueDone n how) (byte2 n ++ [code])
          ∧ laid 5 (.directDone tag how) [BitVec.ofNat 8 tag, code])
    ∧ (∀ n : Nat, laid 4 (.listEnd n .follow) (byte2 n ++ [3]) ∧ laid 4 (.listEnd n .input) (byte2 n ++ [4]))
    ∧ (∀ (k : Fin 8) (a : ArmAction) (kind : Byte) (st : Status) (code : Byte),
        (a = .go ∧ kind = 1) ∨ (∃ n, a = .goTo n ∧ kind = 2) ∨ (a = .back ∧ kind = 3) ∨ (a = .pause ∧ kind = 4)
          ∨ (a = .resume ∧ kind = 5) ∨ (∃ n, a = .release n ∧ kind = 6)
          ∨ (∃ mask target n curve, a = .fade mask target n curve ∧ kind = 7)
          ∨ (∃ l n, a = .setMaster l n ∧ kind = 8) →
        (st, code) ∈ [(Status.done, (0x00 : Byte)), (.wrongState, 0x43), (.notFound, 0x47), (.parked, 0x49),
          (.endOfList, 0x4A)] →
        laid 6 (.armFired k a st) [BitVec.ofNat 8 k.val, kind, code])
    ∧ (∀ changed levels overrun : BitVec 4, laid 7 (.inputChange changed levels overrun)
        [changed.setWidth 8, levels.setWidth 8, overrun.setWidth 8])
    ∧ (∀ n : Nat, laid 8 (.editExpired true n) ([1] ++ byte2 n) ∧ laid 8 (.editExpired false n) ([2] ++ byte2 n))
    ∧ (∀ (b : Bank) (g : Nat), laid 9 (.storeDone true b g) ([0, BitVec.ofNat 8 b.val] ++ byte4 g)
        ∧ laid 9 (.storeDone false b g) ([1, BitVec.ofNat 8 b.val] ++ byte4 g))
    ∧ (laid 10 (.silenceBegin .hold) [0, 0] ∧ laid 10 (.silenceBegin .safe) [0, 1]
        ∧ laid 10 (.silenceBegin .nothing) [0, 2])
    ∧ (∀ seconds : Nat, laid 10 (.silenceEnd seconds) ([1] ++ byte2 seconds))
    ∧ ∀ lost : Nat, laid 11 (.overflow lost) [BitVec.ofNat 8 lost])

/-- STORE_SHOW writes the other bank than the newest valid one, as its next generation (R193): its record and its
magic are made invalid, the staging area takes the image of the working show with header and CRC, ERASING has 500 ms,
and the newest valid bank stays; the value over the magic is free (log entry 10). A store in progress and the greatest
generation refuse it.

READ_MEMORY returns the bank records, the newest valid bank, the store and the last result, and changes nothing (R190,
R202). -/
def Obligations.StoreShowIsAccepted : Prop :=
  (∀ (h : Hdr) (s : State), TakesNew h 0x3D s →
    (s.mem.store ≠ none → Refuses (.storeShow h) h 0x3D s .busy)
    ∧ (s.mem.store = none → ∀ b g, newestBank s.mem.recs = some (b, g) → 4294967295 ≤ g →
      Refuses (.storeShow h) h 0x3D s .noSpace)
    ∧ ∀ (target : Bank) (g : Nat), s.mem.store = none →
      (newestBank s.mem.recs = none ∧ target = 0 ∧ g = 1)
        ∨ (∃ b n, newestBank s.mem.recs = some (b, n) ∧ n < 4294967295 ∧ target ≠ b ∧ g = n + 1) →
      ∃ t, Answers (.storeShow h) h 0x3D s t .accepted (byte1 target.val ++ byte4 g)
        ∧ t.mem.store = some ⟨.erasing, target, g, s.now + 500⟩
        ∧ Table.at t.mem.recs target = none
        ∧ Table.at t.mem.recs (otherBank target) = Table.at s.mem.recs (otherBank target)
        ∧ (∃ value : Word, value.toNat ≠ magic
            ∧ Table.at t.mem.banks target = writeBytes (Table.at s.mem.banks target) 0 (byte4 value.toNat))
        ∧ Table.at t.mem.banks (otherBank target) = Table.at s.mem.banks (otherBank target)
        ∧ readBytes t.mem.staging 0 (bankBytes g s.working.image).length = bankBytes g s.working.image
        ∧ t = { s.taken with mem := { t.mem with lastResult := s.mem.lastResult }, free := s.free + 1 })
  ∧ (∀ (h : Hdr) (s : State), TakesNew h 0x3F s →
    let record (b : Bank) : List Byte := match Table.at s.mem.recs b with
      | some g => [1] ++ byte4 g
      | none => [0, 0, 0, 0, 0]
    let newest : Byte := match Table.at s.mem.recs 0, Table.at s.mem.recs 1 with
      | none, none => 0xFF
      | some _, none => 0
      | none, some _ => 1
      | some g, some g' => if g' > g then 1 else 0
    Answers (.readMemory h) h 0x3F s s.taken .done
      (record 0 ++ record 1 ++ [newest] ++ byte1 (storeCode s.mem.store)
        ++ (match s.mem.store with
          | some r => byte1 r.target.val ++ byte4 r.generation
          | none => [0xFF, 0, 0, 0, 0])
        ++ (match s.mem.lastResult with
          | some r => byte1 (if r.ok then 1 else 2) ++ byte1 r.bank.val ++ byte4 r.generation
          | none => [0, 0xFF, 0, 0, 0, 0])))

/-- LOAD_SHOW (R200, R201) is refused during a store, or while anything plays or an edit session is open; a newest
bank that passes its check replaces the working show, and each owner takes its part; a bank that fails has its record
made invalid, and the other bank is loaded in its place in the same way, or none is. The reply carries the generation
of the header just checked (log entry 25), and the CUE_DONEs on their way to the arm monitor stay (log entry 16). -/
def Obligations.LoadShowReplacesTheShow : Prop :=
  ∀ (h : Hdr) (s : State), TakesNew h 0x3E s →
    let ready : Prop := s.player.state = .stopped ∧ s.player.sched = [] ∧ s.editor.session = .idle
      ∧ ∀ c : Chan, (s.chan c).fade = none
    (s.mem.store ≠ none → Refuses (.loadShow h) h 0x3E s .busy)
    ∧ (s.mem.store = none → ¬ ready → Refuses (.loadShow h) h 0x3E s .wrongState)
    ∧ (s.mem.store = none → ready → ∀ b n, newestBank s.mem.recs = some (b, n) →
      ∀ g w, checkBank (Table.at s.mem.banks b) = some (g, w) →
        ∃ t, Answers (.loadShow h) h 0x3E s t .done (byte1 b.val ++ byte4 g)
          ∧ t.working = w ∧ t.comp = { s.comp with lineBlackout := t.blackoutCondition }
          ∧ (∀ k : Fin 8, Table.at t.arm.fired k = false
              ∧ Table.at t.arm.memory k = (Table.at w.arms k).bind fun d => t.initialMemory d.condition)
          ∧ t = { s.taken with working := w, comp := t.comp, arm := { t.arm with inbox := s.arm.inbox } })
    ∧ (s.mem.store = none → ready → ∀ b n m, newestBank s.mem.recs = some (b, n) →
      checkBank (Table.at s.mem.banks b) = none → Table.at s.mem.recs (otherBank b) = some m →
      ∀ g w, checkBank (Table.at s.mem.banks (otherBank b)) = some (g, w) →
        ∃ t, Answers (.loadShow h) h 0x3E s t .done (byte1 (otherBank b).val ++ byte4 g)
          ∧ t.working = w ∧ t.comp = { s.comp with lineBlackout := t.blackoutCondition }
          ∧ (∀ k : Fin 8, Table.at t.arm.fired k = false
              ∧ Table.at t.arm.memory k = (Table.at w.arms k).bind fun d => t.initialMemory d.condition)
          ∧ Table.at t.mem.recs b = none ∧ Table.at t.mem.recs (otherBank b) = some m
          ∧ t = { s.taken with
              working := w
              comp := t.comp
              arm := { t.arm with inbox := s.arm.inbox }
              mem := { s.mem with recs := t.mem.recs } })
    ∧ (s.mem.store = none → ready →
        (∀ b n, Table.at s.mem.recs b = some n → checkBank (Table.at s.mem.banks b) = none) →
      ∃ recs : Table (Option Nat) 2, Table.at recs 0 = none ∧ Table.at recs 1 = none
        ∧ Answers (.loadShow h) h 0x3E s { s.taken with mem := { s.mem with recs := recs } } .notFound [])

/-- The phases of a store (R194, R195, R196): an erase that the memory reports complete leaves a blank target and
opens PROGRAMMING for 800 ms; programming that was taken leaves the staged bytes behind the magic and opens VERIFYING
for 100 ms; a read-back that matches writes the magic, makes the record valid with the store's generation, and ends
the store OK with STORE_DONE. What the memory reports is an operand, and a report of success is taken to hold of the
bytes (the model's choice, log entry 18).

A store ends FAILED when an erase or a write fails, when the read-back or the magic differs, be it by the report or by
the bytes of the target, or at its phase limit (R197): the record stays invalid and the magic wrong, the other bank
and its record stay, and STORE_DONE(FAILED) is offered. PROGRAMMING leaves image, CRC and header partly written, in
this order, and nothing else changed; VERIFYING leaves the bytes behind the magic as programmed, but for those that
the memory found to differ, and at its limit the magic too (R195, R197, log entry 11). The staging area is blank after
a store (log entry 27). -/
def Obligations.StorePhasesEnd : Prop :=
  (∀ (s : State) (r : Store), s.phase = .running → s.mem.store = some r → MemoryLaw s.mem →
    let staged := readBytes s.mem.staging 4 (10 + littleEndian (readBytes s.mem.staging 8 2))
    (r.phase = .erasing → exec (.eraseEnd true) s = .next { s with mem := { s.mem with
        banks := Table.put s.mem.banks r.target []
        store := some { r with phase := .programming, limit := s.now + 800 } } })
    ∧ (r.phase = .programming → ∃ bank : Memory,
        exec (.programmingEnd true) s = .next { s with mem := { s.mem with
          banks := Table.put s.mem.banks r.target bank
          store := some { r with phase := .verifying, limit := s.now + 100 } } }
        ∧ readBytes bank 4 staged.length = staged
        ∧ readBytes bank 0 4 = readBytes (Table.at s.mem.banks r.target) 0 4)
    ∧ (r.phase = .verifying → readBytes (Table.at s.mem.banks r.target) 4 staged.length = staged →
      ∃ bank : Memory,
        exec (.verifyEnd true true) s = .next { s with
          mem := { s.mem with
            banks := Table.put s.mem.banks r.target bank
            recs := Table.put s.mem.recs r.target (some r.generation)
            store := none
            staging := []
            lastResult := some ⟨true, r.target, r.generation⟩ }
          report := s.report.offer s.working.params.reportEnable s.now (.storeDone true r.target r.generation) }
        ∧ littleEndian (readBytes bank 0 4) = 0x5A3E71C6
        ∧ readBytes bank 4 staged.length = staged))
  ∧ (∀ (c : Instr) (s : State) (r : Store), s.phase = .running → s.mem.store = some r →
    let staged := readBytes s.mem.staging 4 (10 + littleEndian (readBytes s.mem.staging 8 2))
    (r.phase = .erasing ∧ c = .eraseEnd false)
      ∨ (r.phase = .programming ∧ c = .programmingEnd false)
      ∨ (r.phase = .verifying ∧ ∃ same read, c = .verifyEnd same read ∧ ((same && read) = false
        ∨ readBytes (Table.at s.mem.banks r.target) 4 staged.length ≠ staged))
      ∨ (s.now = r.limit ∧ c = .storePhaseLimit) →
    ∃ t, exec c s = .next t
      ∧ Table.at t.mem.recs r.target = none
      ∧ (r.phase = .erasing ∨ (MemoryLaw s.mem ∧ StoreLaw s.mem) →
          checkBank (Table.at t.mem.banks r.target) = none)
      ∧ (r.phase = .programming → MemoryLaw s.mem →
          PartlyProgrammed s.mem.staging (Table.at s.mem.banks r.target) (Table.at t.mem.banks r.target))
      ∧ (r.phase = .verifying → (∀ read, c ≠ .verifyEnd false read) → ∀ a, 4 ≤ a →
          readByte (Table.at t.mem.banks r.target) a = readByte (Table.at s.mem.banks r.target) a)
      ∧ (r.phase = .verifying → (∀ read, c ≠ .verifyEnd true read) → ∀ a, a < 4 ∨ 4 + staged.length ≤ a →
          readByte (Table.at t.mem.banks r.target) a = readByte (Table.at s.mem.banks r.target) a)
      ∧ Table.at t.mem.recs (otherBank r.target) = Table.at s.mem.recs (otherBank r.target)
      ∧ Table.at t.mem.banks (otherBank r.target) = Table.at s.mem.banks (otherBank r.target)
      ∧ t.mem.store = none ∧ t.mem.staging = [] ∧ t.mem.lastResult = some ⟨false, r.target, r.generation⟩
      ∧ t.report = s.report.offer s.working.params.reportEnable s.now (.storeDone false r.target r.generation)
      ∧ t = { s with mem := t.mem, report := t.report, free := t.free })

/-- The bytes that a store stages are those of a valid bank with its generation, and their show is the show stored:
the image layout reads back (R189, R190, R211). -/
def Obligations.StoredShowReadsBack : Prop :=
  ∀ (w : Show) (g : Nat), 1 ≤ g → g ≤ 4294967295 → ParamsLaw w.params → PatchLaw w → CurveLaw w → CueListLaw w →
    ArmLaw w → (∀ q ∈ w.cues, ∀ a ∈ q.actions, (w.curve a.curve).isSome) →
    (bankBytes g w.image).length ≤ 8192
      ∧ checkBank (writeBytes [] 0 (bankBytes g w.image)) = some (g, w)

/-! ## The frame event and the outputs -/

/-- The advance of the channels and the master at a frame event, in a node whose arm slots are all EMPTY (R4, R7, R15
to R17, R21, R98): an unfrozen context runs on to this instant and sets its channel's level along its curve, or
completes at its target; every other channel stays; the master runs along a straight line; the frame timer is
reloaded.

CUE_DONE is offered once for each cue whose last item completes, and DIRECT_DONE for each such tag, COMPLETED, or CUT
if the cut flag stood, and nothing else is offered (R71, R72, R79, R90, R92). -/
def Obligations.FrameEventAdvancesTheFades : Prop :=
  ∀ s : State, s.phase = .running → s.clock.frameTimer = some 0 → (∀ k : Fin 8, Table.at s.working.arms k = none) →
    ∃ t, exec .frameEvent s = .next t
      ∧ t.clock = { s.clock with frameTimer := some (s.working.params.framePeriod * 1000) }
      ∧ (∀ c : Chan, (s.chan c).fade = none → t.chan c = s.chan c)
      ∧ (∀ (c : Chan) (f : Fade), (s.chan c).fade = some f → f.frozen = true → t.chan c = s.chan c)
      ∧ (∀ (c : Chan) (f : Fade), (s.chan c).fade = some f → f.frozen = false →
          f.duration ≤ f.elapsed + since s.now f.lastAdvance →
          t.chan c = { s.chan c with level := f.target, fade := none })
      ∧ (∀ (c : Chan) (f : Fade) (points : List Point), (s.chan c).fade = some f → f.frozen = false →
          f.elapsed + since s.now f.lastAdvance < f.duration → s.working.curve f.curve = some points →
          let elapsed := f.elapsed + since s.now f.lastAdvance
          t.chan c = { s.chan c with
            level := ((f.start : Int) + (((f.target : Int) - f.start)
              * progressOn points (elapsed * 1000 / f.duration)).tdiv 1000).toNat
            fade := some { f with elapsed := elapsed, lastAdvance := s.now } })
      ∧ (s.fade.masterCtx = none → t.fade.master = s.fade.master ∧ t.fade.masterCtx = none)
      ∧ (∀ m : MasterFade, s.fade.masterCtx = some m →
          let elapsed := m.elapsed + since s.now m.lastAdvance
          (m.duration ≤ elapsed → t.fade.master = m.target ∧ t.fade.masterCtx = none)
          ∧ (elapsed < m.duration →
            t.fade.master = ((m.start : Int) + (((m.target : Int) - m.start)
              * ((elapsed * 1000 / m.duration : Nat) : Int)).tdiv 1000).toNat
            ∧ t.fade.masterCtx = some { m with elapsed := elapsed, lastAdvance := s.now }))
      ∧ (∀ k : Fin 8, Table.at t.arm.fired k = false)
      ∧ (LiveLaw s → TagLaw s → ∃ ended, EndsReported .none byFlag ended s t
          ∧ t.report = ended.foldl (fun u d => u.offer s.working.params.reportEnable s.now d) s.report)

/-- The snapshot of a frame event (R26) shows the level of every channel after its advance, the parks, the master and
the progress; the compositor takes it as it was published, whatever the armed actions do after it (R24, R26, R27; the
model's reading of the order, log entry 15).

What the compositor makes of the snapshot of a frame event (R134, R135, R138): 0 without a source and under blackout;
else the level, scaled by the master unless parked, through the law and the minimum. The local outputs' values wait
for their next period. -/
def Obligations.FrameEventComposesTheOutputs : Prop :=
  (∀ s : State, s.phase = .running → s.clock.frameTimer = some 0 →
    ∃ t p, exec .frameEvent s = .next t ∧ t.fade.snapshot = some p
      ∧ (∀ c : Chan, Table.at p.parked c = decide ((s.chan c).park ≠ none))
      ∧ (∀ c : Chan, (s.chan c).fade = none →
          Table.at p.levels c = (s.chan c).level ∧ Table.at p.progress c = none)
      ∧ (∀ (c : Chan) (f : Fade), (s.chan c).fade = some f → f.frozen = true →
          Table.at p.levels c = (s.chan c).level
            ∧ Table.at p.progress c = some (timeFraction f.elapsed f.duration))
      ∧ (∀ (c : Chan) (f : Fade), (s.chan c).fade = some f → f.frozen = false →
          let elapsed := f.elapsed + since s.now f.lastAdvance
          Table.at p.progress c = some (if f.duration ≤ elapsed then 1000 else elapsed * 1000 / f.duration)
            ∧ (f.duration ≤ elapsed → Table.at p.levels c = f.target)
            ∧ ∀ points, elapsed < f.duration → s.working.curve f.curve = some points →
              Table.at p.levels c = ((f.start : Int) + (((f.target : Int) - f.start)
                * progressOn points (elapsed * 1000 / f.duration)).tdiv 1000).toNat)
      ∧ (s.fade.masterCtx = none → p.master = s.fade.master)
      ∧ (∀ m : MasterFade, s.fade.masterCtx = some m →
          let elapsed := m.elapsed + since s.now m.lastAdvance
          (m.duration ≤ elapsed → p.master = m.target)
            ∧ (elapsed < m.duration → p.master = ((m.start : Int) + (((m.target : Int) - m.start)
              * ((elapsed * 1000 / m.duration : Nat) : Int)).tdiv 1000).toNat)))
  ∧ (∀ s : State, s.phase = .running → s.clock.frameTimer = some 0 →
    ∃ t p, exec .frameEvent s = .next t ∧ t.fade.snapshot = some p
      ∧ (∀ o : Fin 40, (Table.at s.working.patch o).source = none → Table.at t.comp.composed o = 0)
      ∧ (s.comp.hostBlackout = true ∨ s.comp.lineBlackout = true → ∀ o : Fin 40, Table.at t.comp.composed o = 0)
      ∧ (s.comp.hostBlackout = false → s.comp.lineBlackout = false → ∀ (o : Fin 40) (c : Chan),
          (Table.at s.working.patch o).source = some c →
          let r := Table.at s.working.patch o
          let v := if Table.at p.parked c then Table.at p.levels c else Table.at p.levels c * p.master / 1000
          let x := match r.law with
            | .linear => v
            | .square => v * v / 4095
            | .switch => if r.threshold ≤ v then 4095 else 0
          Table.at t.comp.composed o = if 0 < x ∧ x < r.min then r.min else x)
      ∧ (∀ k : Fin 8, Table.at t.pwm.waiting k = some (Table.at t.comp.composed ⟨k.val, by omega⟩))
      ∧ t.pwm.applied = s.pwm.applied ∧ t.comp.hostBlackout = s.comp.hostBlackout)

/-- The chain at a frame event (R135, R142, R143, R147): with no slots configured nothing is written; else the frame
is written over the READY buffer, counting a skip, or into a FREE one, and an IDLE shifter takes it at once. -/
def Obligations.FrameEventFeedsTheChain : Prop :=
  ∀ s : State, s.phase = .running → s.clock.frameTimer = some 0 → ChainLaw s.chain →
    ∃ t, exec .frameEvent s = .next t
      ∧ (s.working.params.chainSlots = 0 → t.chain = s.chain)
      ∧ ∀ n, s.working.params.chainSlots = n → 1 ≤ n → n ≤ 32 →
        let frame (role : BufRole) : Buffer := ⟨role, n, s.working.params.chainClock,
          (List.range n).map fun k => t.comp.composed[8 + k]?.getD 0⟩
        (∀ b : Fin 2, (Table.at s.chain.bufs b).role = .ready →
          t.chain = { s.chain with
            bufs := Table.put s.chain.bufs b (frame .ready), skips := min 65535 (s.chain.skips + 1) })
        ∧ (∀ b : Fin 2, (Table.at s.chain.bufs b).role = .shifting →
            (∀ x : Fin 2, x ≠ b → (Table.at s.chain.bufs x).role = .free →
              t.chain = { s.chain with bufs := Table.put s.chain.bufs x (frame .ready) }))
        ∧ ((∀ b : Fin 2, (Table.at s.chain.bufs b).role = .free) →
            t.chain = { s.chain with bufs := Table.put s.chain.bufs 0 (frame .shifting), age := 0 })

/-- The progress along a curve that meets the shape rules (R16): at x it lies on the segment that begins at or before
x and ends beyond it, at its first y plus the truncated share of the rise, and at x = 1000 it is 1000; every x below
1000 lies on exactly one segment, and on curve 0 the progress is x.

The level of a fade lies between its start and its target on every curve that meets the shape rules, at every time
fraction, and the progress it has there lies in 0 to 1000 (R11, R15 to R17). -/
def Obligations.FadeStaysBetweenItsEnds : Prop :=
  (∀ (points : List Point), shapeOk points = true →
    (∀ (i : Nat) (a b : Point) (x : Nat), points[i]? = some a → points[i + 1]? = some b → a.x ≤ x → x < b.x →
      progressOn points x
        = (a.y : Int) + (((b.y : Int) - a.y) * ((x : Int) - a.x)).tdiv ((b.x : Int) - a.x))
    ∧ (∀ x, x < 1000 → ∃! i, ∃ a b, points[i]? = some a ∧ points[i + 1]? = some b ∧ a.x ≤ x ∧ x < b.x)
    ∧ progressOn points 1000 = 1000)
  ∧ (∀ (s : State) (points : List Point) (x : Nat), s.working.curve 0 = some points → progressOn points x = x)
  ∧ (∀ (points : List Point) (start target elapsed duration : Nat), shapeOk points = true → 1 ≤ duration →
    let p := progressOn points (timeFraction elapsed duration)
    (0 ≤ p ∧ p ≤ 1000) ∧ min start target ≤ levelAt start target p ∧ levelAt start target p ≤ max start target
      ∧ (duration ≤ elapsed → levelAt start target p = target))

/-- A PWM period ends (R137, R138): the pending duties are applied and gone, an output without one keeps its duty, and
the next period has the length pwm_frequency gives. Before its end nothing happens.

L1 to L8 (R137; as functions of the state, log entry 30): in a period an output is high from the boundary for the
fraction duty / 4095 of it, and low for the rest; duty 0 is low and duty 4095 high through the whole period.

A shift of n slots at clock f ends after 16 × n / f (R144, R145): its buffer becomes FREE, and the other buffer, if
READY, begins to shift at that instant. Before its end nothing happens (fractions of a microsecond are rounded up, log
entry 2).

During a shift (R143; as functions of the state, log entry 30) CDAT carries a word for each slot from the highest
down, four 0 bits and the value with its most significant bit first; CCLK is high in the second half of each bit's
period, and CLAT in the second half of the last one's. Between shifts all three are low. -/
def Obligations.PeriodsAndShiftsEnd : Prop :=
  ((∀ (s : State) (p : PwmTimer), s.phase = .running → s.pwm.timer = some p →
    (p.left = 0 → ∃ t, exec .pwmPeriodBoundary s = .next t
      ∧ (∀ k : Fin 8, Table.at t.pwm.waiting k = none
          ∧ Table.at t.pwm.applied k = (Table.at s.pwm.waiting k).getD (Table.at s.pwm.applied k))
      ∧ t.pwm.timer = some ⟨1000000 / s.working.params.pwmFrequency, 1000000 / s.working.params.pwmFrequency⟩
      ∧ t = { s with pwm := t.pwm })
    ∧ (p.left ≠ 0 → exec .pwmPeriodBoundary s = .next s))
  ∧ (∀ (s : State) (k : Fin 8) (p : PwmTimer), s.pwm.timer = some p → p.left ≤ p.period →
    let duty := Table.at s.pwm.applied k
    (duty = 0 → s.localPin k = false) ∧ (duty = 4095 → s.localPin k = true)
    ∧ (duty < 4095 → (s.localPin k = true ↔ 4095 * (p.period - p.left) < duty * p.period))))
  ∧ ((∀ (s : State) (b x : Fin 2), s.phase = .running → ChainLaw s.chain → b ≠ x →
    (Table.at s.chain.bufs b).role = .shifting →
    (16 * (Table.at s.chain.bufs b).slots * 1000000 ≤ s.chain.age * (Table.at s.chain.bufs b).clock →
      exec .chainShiftEnd s = .next { s with chain := { s.chain with
        bufs := Table.put (Table.put s.chain.bufs b { Table.at s.chain.bufs b with role := .free }) x
          (if (Table.at s.chain.bufs x).role = .ready then { Table.at s.chain.bufs x with role := .shifting }
            else Table.at s.chain.bufs x)
        age := 0 } })
    ∧ (s.chain.age * (Table.at s.chain.bufs b).clock < 16 * (Table.at s.chain.bufs b).slots * 1000000 →
      exec .chainShiftEnd s = .next s))
  ∧ (∀ (s : State) (b : Fin 2), ChainLaw s.chain → (Table.at s.chain.bufs b).role = .shifting →
    let buf := Table.at s.chain.bufs b
    let half := 2 * (s.chain.age * buf.clock) / 1000000
    let bit := half / 2
    buf.values.length = buf.slots → bit < 16 * buf.slots →
    (∀ v, buf.values[buf.slots - 1 - bit / 16]? = some v →
      s.cdat = (decide (4 ≤ bit % 16) && v.testBit (15 - bit % 16)))
    ∧ s.cclk = decide (half % 2 = 1) ∧ s.clat = decide (half % 2 = 1 ∧ bit + 1 = 16 * buf.slots))
  ∧ (∀ s : State, (∀ b : Fin 2, (Table.at s.chain.bufs b).role ≠ .shifting) →
    s.cdat = false ∧ s.cclk = false ∧ s.clat = false))

/-! ## Inputs and silence -/

/-- A running part samples each line once in each millisecond (R119): a line that stands at another level than the
sample before it starts a wait of the present debounce time if it moved away from the debounced level, and discards
the wait if it moved back. Between two samples, and where the sample is at the same level, only the line moves, and a
pulse is not seen. That the sample falls at the first instant of the millisecond, and that a part that does not run
takes none, is the model's choice (log entry 21).

A debounce wait that has run its length flips the debounced level and is gone, and the event goes by the role (R120,
R122 to R126): INPUT_CHANGE is offered before anything else when the report flag is set, whatever the role; UNUSED
does no more; BLACKOUT hands the condition over. A wait that has not run its length stays.

For every role but UNUSED the event reaches the arm monitor (R103, R123): each slot with INPUT_EDGE on this input, of
an edge that the change has, fires if its flag is clear, and a ONCE slot becomes EMPTY; they fire in ascending order,
each running its action and offering ARM_FIRED before the next (R107 to R110). For role GO this stands in
GoInputStartsTheNextCue. -/
def Obligations.InputsAreDebounced : Prop :=
  ((∀ (i : Input) (l : Level) (s : State),
    let moved := { s.pins with lines := Table.put s.pins.lines i l }
    (s.phase ≠ .running → exec (.inputLineChange i l) s = .next { s with pins := moved })
    ∧ (s.phase = .running →
      (s.clock.micro ≠ 0 ∨ Table.at s.inputs.sampled i = true ∨ l = Table.at s.inputs.sample i →
        exec (.inputLineChange i l) s = .next { s with pins := moved })
      ∧ (s.clock.micro = 0 → Table.at s.inputs.sampled i = false → l ≠ Table.at s.inputs.sample i →
        let seen (w : Option Wait) : InputUnit := { s.inputs with
          wait := Table.put s.inputs.wait i w
          sample := Table.put s.inputs.sample i l
          sampled := Table.put s.inputs.sampled i true }
        (Table.at s.inputs.wait i = none → l ≠ Table.at s.inputs.level i →
          exec (.inputLineChange i l) s = .next { s with
            pins := moved, inputs := seen (some ⟨s.now, s.working.params.debounce⟩) })
        ∧ (∀ w, Table.at s.inputs.wait i = some w →
          exec (.inputLineChange i l) s = .next { s with pins := moved, inputs := seen none }))))
  ∧ (∀ (i : Input) (s : State), s.phase = .running →
    (.inputLineChange i (Table.at s.pins.lines i) ∈ dueEvents s ↔ s.clock.micro = 0
      ∧ Table.at s.inputs.sampled i = false ∧ Table.at s.pins.lines i ≠ Table.at s.inputs.sample i)))
  ∧ (∀ (i : Input) (playerFirst : Bool) (s : State) (w : Wait), s.phase = .running → Table.at s.inputs.wait i = some w →
    let role := Table.at s.working.params.role i
    let flipped : Level := match Table.at s.inputs.level i with
      | .low => .high
      | .high => .low
    let active := activeAt (Table.at s.working.params.polarity i) flipped
    let inputs : InputUnit := { s.inputs with
      level := Table.put s.inputs.level i flipped, wait := Table.put s.inputs.wait i none }
    let fires : Fin 8 → Bool := fun k => decide (role ≠ .unused) && inputFires i active s k
    (w.length ≤ since s.now w.start → ∃ t, exec (.debounceExpiry i playerFirst) s = .next t
      ∧ t.inputs = inputs
      ∧ (∃ later : List Report, t.report = (if Table.at s.working.params.report i
          then .inputChange (BitVec.ofNat 4 (2 ^ i.val)) t.activeMask 0 :: later else later).foldl
            (fun u d => u.offer s.working.params.reportEnable s.now d) s.report
        ∧ let reported : State := { s with
            inputs := inputs
            report := if Table.at s.working.params.report i then s.report.offer s.working.params.reportEnable s.now
                (.inputChange (BitVec.ofNat 4 (2 ^ i.val)) t.activeMask 0) else s.report }
          (role = .unused → later = [] ∧ t = reported)
          ∧ (role = .trigger → FireAll fires reported t)
          ∧ (role = .blackout → ∃ u, FireAll fires reported u
              ∧ t = { u with comp := { u.comp with lineBlackout := t.blackoutCondition } }))
      ∧ (∀ k : Fin 8, Table.at t.arm.fired k = (Table.at s.arm.fired k || fires k)
          ∧ Table.at t.working.arms k = match Table.at s.working.arms k with
            | some d => if fires k && (d.mode == .once) then none else some d
            | none => none)
      ∧ (role = .blackout → t.comp.lineBlackout = t.blackoutCondition)
      ∧ (role ≠ .blackout → t.comp = s.comp)
      ∧ t.comp.hostBlackout = s.comp.hostBlackout ∧ t.clock = s.clock ∧ t.pins = s.pins)
    ∧ (since s.now w.start < w.length → exec (.debounceExpiry i playerFirst) s = .next s))

/-- A GO-role input that becomes active starts the next cue above the position with source INPUT, which CUE_STARTED
carries, or LIST_END is offered and the player stays (R78, R80, R124). The arm monitor takes the same event, before
the player or after it as the row says (R124, log entry 17), its slots firing in ascending order, each whole (R110),
and INPUT_CHANGE comes before both. An input that becomes inactive, and one of role TRIGGER, goes to the arm monitor
alone. -/
def Obligations.GoInputStartsTheNextCue : Prop :=
  ∀ (i : Input) (playerFirst : Bool) (s : State) (w : Wait), s.phase = .running → Table.at s.inputs.wait i = some w →
    w.length ≤ since s.now w.start → CueListLaw s.working → PositionLaw s →
    let role := Table.at s.working.params.role i
    ∃ t, exec (.debounceExpiry i playerFirst) s = .next t
      ∧ let active := t.active i
        let reported : State := { s with
          inputs := t.inputs
          report := if Table.at s.working.params.report i then s.report.offer s.working.params.reportEnable s.now
              (.inputChange (BitVec.ofNat 4 (2 ^ i.val)) t.activeMask 0) else s.report }
        (role = .go → active = true → playerFirst = true →
          ∃ u, NextCueOrListEnd .input reported u ∧ t = takeInputEvent i true u ∧ FireAll (inputFires i true u) u t)
        ∧ (role = .go → active = true → playerFirst = false →
          ∃ u, u = takeInputEvent i true reported ∧ FireAll (inputFires i true reported) reported u
            ∧ NextCueOrListEnd .input u t)
        ∧ (role = .trigger ∨ (role = .go ∧ active = false) →
          t = takeInputEvent i active reported ∧ FireAll (inputFires i active reported) reported t)
        ∧ ((∀ k : Fin 8, Table.at s.working.arms k = none) →
            (role = .go → active = true → NextCueOrListEnd .input reported t)
            ∧ (role ≠ .go ∨ active = false → t.player = s.player ∧ t.fade = s.fade))

/-- A silence begins when silence_time has passed with no frame taken (R185, R186): HOLD and SAFE without a cue do
nothing to the show, SAFE with a cue of the list starts it with source SILENCE, which CUE_STARTED carries, and
LINK_SILENCE(BEGIN), offered last, tells which. A timer that is stopped, restarted or already expired does nothing.

The first frame taken while SILENT ends the silence before its message is handled, with LINK_SILENCE(END) and the
whole seconds of it, held at 65,535; every frame taken restarts the silence timer (R169, R185, R187). -/
def Obligations.SilenceActsAndEnds : Prop :=
  (∀ s : State, s.phase = .running →
    let p := s.working.params
    let begun : State := { s with line := { s.line with silence := .silent 0 } }
    (1 ≤ p.silenceTime → s.line.silence = .listening → p.silenceTime * 1000 ≤ since s.now s.line.silenceFrom →
      (p.silenceAction = .hold → exec .silenceTimerExpiry s = .next { begun with
        report := s.report.offer p.reportEnable s.now (.silenceBegin .hold) })
      ∧ (p.silenceAction = .safe → p.safeCue = 0 ∨ (∀ q ∈ s.working.cues, q.number ≠ p.safeCue) → p.safeCue ≤ 9999 →
        exec .silenceTimerExpiry s = .next { begun with
          report := s.report.offer p.reportEnable s.now (.silenceBegin .nothing) })
      ∧ (p.silenceAction = .safe → CueListLaw s.working → PositionLaw s →
        ∀ q ∈ s.working.cues, q.number = p.safeCue →
        ∃ u : State, GoStarts (.goTo q.number) q .silence begun u
          ∧ exec .silenceTimerExpiry s = .next { u with
              report := u.report.offer p.reportEnable s.now (.silenceBegin .safe) }))
    ∧ (p.silenceTime = 0 ∨ (∃ ms, s.line.silence = .silent ms)
        ∨ since s.now s.line.silenceFrom < p.silenceTime * 1000 →
      exec .silenceTimerExpiry s = .next s))
  ∧ (∀ s : State,
    (s.line.silence = .listening → s.taken = { s with line := { s.line with
      rx := .hunt, rxAge := 0, frameErrors := s.line.errorsAfter, silenceFrom := s.now } })
    ∧ ∀ ms, s.line.silence = .silent ms → s.taken = { s with
      line := { s.line with
        rx := .hunt, rxAge := 0, frameErrors := s.line.errorsAfter, silence := .listening, silenceFrom := s.now }
      report := s.report.offer s.working.params.reportEnable s.now (.silenceEnd (min 65535 (ms / 1000))) })

/-! ## Laws that every step keeps -/

/-- The part right after power-on is sound; its straps, its lines and its blank banks are the model's choice (log
entries 8 and 9). -/
def Obligations.ResetIsSound : Prop := Sound State.reset

/-- No step leaves a parked channel with a fade, another level than its park, or a scheduled start; at most one
scheduled start names a channel, and the list stands in ascending order of the time left, with none overdue while the
player is not PAUSED (R1, R62, R63). -/
def Obligations.StepKeepsParksAndSchedule : Prop :=
  ∀ s t : State, Sound s → step s = .next t → ParkLaw t ∧ SchedLaw t

/-- Only cue-owned contexts are ever frozen, and they are those of a PAUSED player; the player's state matches its
position, its collections and its resume_to (R6, R53, R54). -/
def Obligations.StepKeepsThePlayerLaws : Prop :=
  ∀ s t : State, Sound s → step s = .next t → FreezeLaw t ∧ PositionLaw t ∧ PlayerLaw t

/-- After every step each live entry counts exactly what its cue owns, every cue that owns anything has one entry, and
every batch record counts exactly the contexts of its tag (R69, R89). -/
def Obligations.StepKeepsTheAccounting : Prop :=
  ∀ s t : State, Sound s → step s = .next t → LiveLaw t ∧ TagLaw t

/-- The report queue holds at most 32 records numbered one after another, no record but the head is sent, and at most
one INPUT_CHANGE record is unsent (R149, R151, R152, R155, R157). -/
def Obligations.StepKeepsTheReportQueue : Prop :=
  ∀ s t : State, Sound s → step s = .next t → ReportLaw t.report

/-- The working show stays within the limits of its parts, and so does the edit session (R10 to R12, R30 to R32, R34,
R107, R129, R180).

Every fade context, every scheduled start and every action of every cue names a defined curve (R13). -/
def Obligations.StepKeepsTheShow : Prop :=
  (∀ s t : State, Sound s → step s = .next t →
    ParamsLaw t.working.params ∧ PatchLaw t.working ∧ CueListLaw t.working ∧ CurveLaw t.working ∧ ArmLaw t.working
      ∧ SessionLaw t.editor)
  ∧ (∀ s t : State, Sound s → step s = .next t → CurvesDefined t)

/-- Every bank and the staging area keep their canonical form, which is the model's own form of their bytes (log entry
9), and while a store is in progress its target's record is invalid and its magic does not match (R193 to R197). -/
def Obligations.StepKeepsTheMemory : Prop :=
  ∀ s t : State, Sound s → step s = .next t → MemoryLaw t.mem ∧ StoreLaw t.mem

/-- At most one chain buffer is SHIFTING and at most one READY, the line blackout flag follows its inputs, an input
waits exactly while its line was last sampled away from the debounced level, and the counters stay in range (R118,
R119, R125, R141, R147, R168).

A part that does not run is at rest (R188, R191; that a part without power or held in reset holds reset values, and
that the assembler stays in HUNT while the show is loaded, is the model's choice, log entries 6, 7 and 35). -/
def Obligations.StepKeepsTheOutputsAndTheLine : Prop :=
  ∀ s t : State, Sound s → step s = .next t →
    ChainLaw t.chain ∧ BlackoutLaw t ∧ InputLaw t.inputs ∧ CounterLaw t ∧ AtRestLaw t

/-- Levels stay in 0 to 4095 and the master in 0 to 1000; every fade has its ends in range and a duration of 1 to
600,000 ms, every scheduled start a target, a time of at most 600,000 ms and at most 60,000 ms left, the master fade a
duration of 1 to 60,000 ms; composed values stay in 0 to 4095 (R1, R6, R17, R62, R96, R134). -/
def Obligations.StepKeepsTheLevels : Prop :=
  ∀ s t : State, Sound s → step s = .next t → LevelLaw t

end
end

