-- ==== Sys2Proof/Laws/State.lean ====
section
/-! SUPPORT. One lemma for each field under each replacement of a block of the state, so that no proof unfolds one. -/

namespace Sys2Proof.Machine

/-! `setFade` -/

@[simp] theorem State.setFade_phase (f : FadeEngine) (s : State) : (s.setFade f).phase = s.phase := rfl
@[simp] theorem State.setFade_pins (f : FadeEngine) (s : State) : (s.setFade f).pins = s.pins := rfl
@[simp] theorem State.setFade_clock (f : FadeEngine) (s : State) : (s.setFade f).clock = s.clock := rfl
@[simp] theorem State.setFade_fade (f : FadeEngine) (s : State) : (s.setFade f).fade = f := rfl
@[simp] theorem State.setFade_working (f : FadeEngine) (s : State) : (s.setFade f).working = s.working := rfl
@[simp] theorem State.setFade_editor (f : FadeEngine) (s : State) : (s.setFade f).editor = s.editor := rfl
@[simp] theorem State.setFade_player (f : FadeEngine) (s : State) : (s.setFade f).player = s.player := rfl
@[simp] theorem State.setFade_arm (f : FadeEngine) (s : State) : (s.setFade f).arm = s.arm := rfl
@[simp] theorem State.setFade_inputs (f : FadeEngine) (s : State) : (s.setFade f).inputs = s.inputs := rfl
@[simp] theorem State.setFade_comp (f : FadeEngine) (s : State) : (s.setFade f).comp = s.comp := rfl
@[simp] theorem State.setFade_pwm (f : FadeEngine) (s : State) : (s.setFade f).pwm = s.pwm := rfl
@[simp] theorem State.setFade_chain (f : FadeEngine) (s : State) : (s.setFade f).chain = s.chain := rfl
@[simp] theorem State.setFade_report (f : FadeEngine) (s : State) : (s.setFade f).report = s.report := rfl
@[simp] theorem State.setFade_line (f : FadeEngine) (s : State) : (s.setFade f).line = s.line := rfl
@[simp] theorem State.setFade_mem (f : FadeEngine) (s : State) : (s.setFade f).mem = s.mem := rfl
@[simp] theorem State.setFade_pending (f : FadeEngine) (s : State) : (s.setFade f).pending = s.pending := rfl
@[simp] theorem State.setFade_free (f : FadeEngine) (s : State) : (s.setFade f).free = s.free := rfl

/-! `setPlayer` -/

@[simp] theorem State.setPlayer_phase (p : Player) (s : State) : (s.setPlayer p).phase = s.phase := rfl
@[simp] theorem State.setPlayer_pins (p : Player) (s : State) : (s.setPlayer p).pins = s.pins := rfl
@[simp] theorem State.setPlayer_clock (p : Player) (s : State) : (s.setPlayer p).clock = s.clock := rfl
@[simp] theorem State.setPlayer_fade (p : Player) (s : State) : (s.setPlayer p).fade = s.fade := rfl
@[simp] theorem State.setPlayer_working (p : Player) (s : State) : (s.setPlayer p).working = s.working := rfl
@[simp] theorem State.setPlayer_editor (p : Player) (s : State) : (s.setPlayer p).editor = s.editor := rfl
@[simp] theorem State.setPlayer_player (p : Player) (s : State) : (s.setPlayer p).player = p := rfl
@[simp] theorem State.setPlayer_arm (p : Player) (s : State) : (s.setPlayer p).arm = s.arm := rfl
@[simp] theorem State.setPlayer_inputs (p : Player) (s : State) : (s.setPlayer p).inputs = s.inputs := rfl
@[simp] theorem State.setPlayer_comp (p : Player) (s : State) : (s.setPlayer p).comp = s.comp := rfl
@[simp] theorem State.setPlayer_pwm (p : Player) (s : State) : (s.setPlayer p).pwm = s.pwm := rfl
@[simp] theorem State.setPlayer_chain (p : Player) (s : State) : (s.setPlayer p).chain = s.chain := rfl
@[simp] theorem State.setPlayer_report (p : Player) (s : State) : (s.setPlayer p).report = s.report := rfl
@[simp] theorem State.setPlayer_line (p : Player) (s : State) : (s.setPlayer p).line = s.line := rfl
@[simp] theorem State.setPlayer_mem (p : Player) (s : State) : (s.setPlayer p).mem = s.mem := rfl
@[simp] theorem State.setPlayer_pending (p : Player) (s : State) : (s.setPlayer p).pending = s.pending := rfl
@[simp] theorem State.setPlayer_free (p : Player) (s : State) : (s.setPlayer p).free = s.free := rfl

/-! `setReport` -/

@[simp] theorem State.setReport_phase (r : ReportUnit) (s : State) : (s.setReport r).phase = s.phase := rfl
@[simp] theorem State.setReport_pins (r : ReportUnit) (s : State) : (s.setReport r).pins = s.pins := rfl
@[simp] theorem State.setReport_clock (r : ReportUnit) (s : State) : (s.setReport r).clock = s.clock := rfl
@[simp] theorem State.setReport_fade (r : ReportUnit) (s : State) : (s.setReport r).fade = s.fade := rfl
@[simp] theorem State.setReport_working (r : ReportUnit) (s : State) : (s.setReport r).working = s.working := rfl
@[simp] theorem State.setReport_editor (r : ReportUnit) (s : State) : (s.setReport r).editor = s.editor := rfl
@[simp] theorem State.setReport_player (r : ReportUnit) (s : State) : (s.setReport r).player = s.player := rfl
@[simp] theorem State.setReport_arm (r : ReportUnit) (s : State) : (s.setReport r).arm = s.arm := rfl
@[simp] theorem State.setReport_inputs (r : ReportUnit) (s : State) : (s.setReport r).inputs = s.inputs := rfl
@[simp] theorem State.setReport_comp (r : ReportUnit) (s : State) : (s.setReport r).comp = s.comp := rfl
@[simp] theorem State.setReport_pwm (r : ReportUnit) (s : State) : (s.setReport r).pwm = s.pwm := rfl
@[simp] theorem State.setReport_chain (r : ReportUnit) (s : State) : (s.setReport r).chain = s.chain := rfl
@[simp] theorem State.setReport_report (r : ReportUnit) (s : State) : (s.setReport r).report = r := rfl
@[simp] theorem State.setReport_line (r : ReportUnit) (s : State) : (s.setReport r).line = s.line := rfl
@[simp] theorem State.setReport_mem (r : ReportUnit) (s : State) : (s.setReport r).mem = s.mem := rfl
@[simp] theorem State.setReport_pending (r : ReportUnit) (s : State) : (s.setReport r).pending = s.pending := rfl
@[simp] theorem State.setReport_free (r : ReportUnit) (s : State) : (s.setReport r).free = s.free := rfl

/-! `setArm` -/

@[simp] theorem State.setArm_phase (a : ArmMonitor) (s : State) : (s.setArm a).phase = s.phase := rfl
@[simp] theorem State.setArm_pins (a : ArmMonitor) (s : State) : (s.setArm a).pins = s.pins := rfl
@[simp] theorem State.setArm_clock (a : ArmMonitor) (s : State) : (s.setArm a).clock = s.clock := rfl
@[simp] theorem State.setArm_fade (a : ArmMonitor) (s : State) : (s.setArm a).fade = s.fade := rfl
@[simp] theorem State.setArm_working (a : ArmMonitor) (s : State) : (s.setArm a).working = s.working := rfl
@[simp] theorem State.setArm_editor (a : ArmMonitor) (s : State) : (s.setArm a).editor = s.editor := rfl
@[simp] theorem State.setArm_player (a : ArmMonitor) (s : State) : (s.setArm a).player = s.player := rfl
@[simp] theorem State.setArm_arm (a : ArmMonitor) (s : State) : (s.setArm a).arm = a := rfl
@[simp] theorem State.setArm_inputs (a : ArmMonitor) (s : State) : (s.setArm a).inputs = s.inputs := rfl
@[simp] theorem State.setArm_comp (a : ArmMonitor) (s : State) : (s.setArm a).comp = s.comp := rfl
@[simp] theorem State.setArm_pwm (a : ArmMonitor) (s : State) : (s.setArm a).pwm = s.pwm := rfl
@[simp] theorem State.setArm_chain (a : ArmMonitor) (s : State) : (s.setArm a).chain = s.chain := rfl
@[simp] theorem State.setArm_report (a : ArmMonitor) (s : State) : (s.setArm a).report = s.report := rfl
@[simp] theorem State.setArm_line (a : ArmMonitor) (s : State) : (s.setArm a).line = s.line := rfl
@[simp] theorem State.setArm_mem (a : ArmMonitor) (s : State) : (s.setArm a).mem = s.mem := rfl
@[simp] theorem State.setArm_pending (a : ArmMonitor) (s : State) : (s.setArm a).pending = s.pending := rfl
@[simp] theorem State.setArm_free (a : ArmMonitor) (s : State) : (s.setArm a).free = s.free := rfl

/-! `setWorking` -/

@[simp] theorem State.setWorking_phase (w : Show) (s : State) : (s.setWorking w).phase = s.phase := rfl
@[simp] theorem State.setWorking_pins (w : Show) (s : State) : (s.setWorking w).pins = s.pins := rfl
@[simp] theorem State.setWorking_clock (w : Show) (s : State) : (s.setWorking w).clock = s.clock := rfl
@[simp] theorem State.setWorking_fade (w : Show) (s : State) : (s.setWorking w).fade = s.fade := rfl
@[simp] theorem State.setWorking_working (w : Show) (s : State) : (s.setWorking w).working = w := rfl
@[simp] theorem State.setWorking_editor (w : Show) (s : State) : (s.setWorking w).editor = s.editor := rfl
@[simp] theorem State.setWorking_player (w : Show) (s : State) : (s.setWorking w).player = s.player := rfl
@[simp] theorem State.setWorking_arm (w : Show) (s : State) : (s.setWorking w).arm = s.arm := rfl
@[simp] theorem State.setWorking_inputs (w : Show) (s : State) : (s.setWorking w).inputs = s.inputs := rfl
@[simp] theorem State.setWorking_comp (w : Show) (s : State) : (s.setWorking w).comp = s.comp := rfl
@[simp] theorem State.setWorking_pwm (w : Show) (s : State) : (s.setWorking w).pwm = s.pwm := rfl
@[simp] theorem State.setWorking_chain (w : Show) (s : State) : (s.setWorking w).chain = s.chain := rfl
@[simp] theorem State.setWorking_report (w : Show) (s : State) : (s.setWorking w).report = s.report := rfl
@[simp] theorem State.setWorking_line (w : Show) (s : State) : (s.setWorking w).line = s.line := rfl
@[simp] theorem State.setWorking_mem (w : Show) (s : State) : (s.setWorking w).mem = s.mem := rfl
@[simp] theorem State.setWorking_pending (w : Show) (s : State) : (s.setWorking w).pending = s.pending := rfl
@[simp] theorem State.setWorking_free (w : Show) (s : State) : (s.setWorking w).free = s.free := rfl

/-! `setEditor` -/

@[simp] theorem State.setEditor_phase (e : Editor) (s : State) : (s.setEditor e).phase = s.phase := rfl
@[simp] theorem State.setEditor_pins (e : Editor) (s : State) : (s.setEditor e).pins = s.pins := rfl
@[simp] theorem State.setEditor_clock (e : Editor) (s : State) : (s.setEditor e).clock = s.clock := rfl
@[simp] theorem State.setEditor_fade (e : Editor) (s : State) : (s.setEditor e).fade = s.fade := rfl
@[simp] theorem State.setEditor_working (e : Editor) (s : State) : (s.setEditor e).working = s.working := rfl
@[simp] theorem State.setEditor_editor (e : Editor) (s : State) : (s.setEditor e).editor = e := rfl
@[simp] theorem State.setEditor_player (e : Editor) (s : State) : (s.setEditor e).player = s.player := rfl
@[simp] theorem State.setEditor_arm (e : Editor) (s : State) : (s.setEditor e).arm = s.arm := rfl
@[simp] theorem State.setEditor_inputs (e : Editor) (s : State) : (s.setEditor e).inputs = s.inputs := rfl
@[simp] theorem State.setEditor_comp (e : Editor) (s : State) : (s.setEditor e).comp = s.comp := rfl
@[simp] theorem State.setEditor_pwm (e : Editor) (s : State) : (s.setEditor e).pwm = s.pwm := rfl
@[simp] theorem State.setEditor_chain (e : Editor) (s : State) : (s.setEditor e).chain = s.chain := rfl
@[simp] theorem State.setEditor_report (e : Editor) (s : State) : (s.setEditor e).report = s.report := rfl
@[simp] theorem State.setEditor_line (e : Editor) (s : State) : (s.setEditor e).line = s.line := rfl
@[simp] theorem State.setEditor_mem (e : Editor) (s : State) : (s.setEditor e).mem = s.mem := rfl
@[simp] theorem State.setEditor_pending (e : Editor) (s : State) : (s.setEditor e).pending = s.pending := rfl
@[simp] theorem State.setEditor_free (e : Editor) (s : State) : (s.setEditor e).free = s.free := rfl

/-! `setInputs` -/

@[simp] theorem State.setInputs_phase (u : InputUnit) (s : State) : (s.setInputs u).phase = s.phase := rfl
@[simp] theorem State.setInputs_pins (u : InputUnit) (s : State) : (s.setInputs u).pins = s.pins := rfl
@[simp] theorem State.setInputs_clock (u : InputUnit) (s : State) : (s.setInputs u).clock = s.clock := rfl
@[simp] theorem State.setInputs_fade (u : InputUnit) (s : State) : (s.setInputs u).fade = s.fade := rfl
@[simp] theorem State.setInputs_working (u : InputUnit) (s : State) : (s.setInputs u).working = s.working := rfl
@[simp] theorem State.setInputs_editor (u : InputUnit) (s : State) : (s.setInputs u).editor = s.editor := rfl
@[simp] theorem State.setInputs_player (u : InputUnit) (s : State) : (s.setInputs u).player = s.player := rfl
@[simp] theorem State.setInputs_arm (u : InputUnit) (s : State) : (s.setInputs u).arm = s.arm := rfl
@[simp] theorem State.setInputs_inputs (u : InputUnit) (s : State) : (s.setInputs u).inputs = u := rfl
@[simp] theorem State.setInputs_comp (u : InputUnit) (s : State) : (s.setInputs u).comp = s.comp := rfl
@[simp] theorem State.setInputs_pwm (u : InputUnit) (s : State) : (s.setInputs u).pwm = s.pwm := rfl
@[simp] theorem State.setInputs_chain (u : InputUnit) (s : State) : (s.setInputs u).chain = s.chain := rfl
@[simp] theorem State.setInputs_report (u : InputUnit) (s : State) : (s.setInputs u).report = s.report := rfl
@[simp] theorem State.setInputs_line (u : InputUnit) (s : State) : (s.setInputs u).line = s.line := rfl
@[simp] theorem State.setInputs_mem (u : InputUnit) (s : State) : (s.setInputs u).mem = s.mem := rfl
@[simp] theorem State.setInputs_pending (u : InputUnit) (s : State) : (s.setInputs u).pending = s.pending := rfl
@[simp] theorem State.setInputs_free (u : InputUnit) (s : State) : (s.setInputs u).free = s.free := rfl

/-! `setComp` -/

@[simp] theorem State.setComp_phase (c : Compositor) (s : State) : (s.setComp c).phase = s.phase := rfl
@[simp] theorem State.setComp_pins (c : Compositor) (s : State) : (s.setComp c).pins = s.pins := rfl
@[simp] theorem State.setComp_clock (c : Compositor) (s : State) : (s.setComp c).clock = s.clock := rfl
@[simp] theorem State.setComp_fade (c : Compositor) (s : State) : (s.setComp c).fade = s.fade := rfl
@[simp] theorem State.setComp_working (c : Compositor) (s : State) : (s.setComp c).working = s.working := rfl
@[simp] theorem State.setComp_editor (c : Compositor) (s : State) : (s.setComp c).editor = s.editor := rfl
@[simp] theorem State.setComp_player (c : Compositor) (s : State) : (s.setComp c).player = s.player := rfl
@[simp] theorem State.setComp_arm (c : Compositor) (s : State) : (s.setComp c).arm = s.arm := rfl
@[simp] theorem State.setComp_inputs (c : Compositor) (s : State) : (s.setComp c).inputs = s.inputs := rfl
@[simp] theorem State.setComp_comp (c : Compositor) (s : State) : (s.setComp c).comp = c := rfl
@[simp] theorem State.setComp_pwm (c : Compositor) (s : State) : (s.setComp c).pwm = s.pwm := rfl
@[simp] theorem State.setComp_chain (c : Compositor) (s : State) : (s.setComp c).chain = s.chain := rfl
@[simp] theorem State.setComp_report (c : Compositor) (s : State) : (s.setComp c).report = s.report := rfl
@[simp] theorem State.setComp_line (c : Compositor) (s : State) : (s.setComp c).line = s.line := rfl
@[simp] theorem State.setComp_mem (c : Compositor) (s : State) : (s.setComp c).mem = s.mem := rfl
@[simp] theorem State.setComp_pending (c : Compositor) (s : State) : (s.setComp c).pending = s.pending := rfl
@[simp] theorem State.setComp_free (c : Compositor) (s : State) : (s.setComp c).free = s.free := rfl

/-! `setPwm` -/

@[simp] theorem State.setPwm_phase (p : PwmUnit) (s : State) : (s.setPwm p).phase = s.phase := rfl
@[simp] theorem State.setPwm_pins (p : PwmUnit) (s : State) : (s.setPwm p).pins = s.pins := rfl
@[simp] theorem State.setPwm_clock (p : PwmUnit) (s : State) : (s.setPwm p).clock = s.clock := rfl
@[simp] theorem State.setPwm_fade (p : PwmUnit) (s : State) : (s.setPwm p).fade = s.fade := rfl
@[simp] theorem State.setPwm_working (p : PwmUnit) (s : State) : (s.setPwm p).working = s.working := rfl
@[simp] theorem State.setPwm_editor (p : PwmUnit) (s : State) : (s.setPwm p).editor = s.editor := rfl
@[simp] theorem State.setPwm_player (p : PwmUnit) (s : State) : (s.setPwm p).player = s.player := rfl
@[simp] theorem State.setPwm_arm (p : PwmUnit) (s : State) : (s.setPwm p).arm = s.arm := rfl
@[simp] theorem State.setPwm_inputs (p : PwmUnit) (s : State) : (s.setPwm p).inputs = s.inputs := rfl
@[simp] theorem State.setPwm_comp (p : PwmUnit) (s : State) : (s.setPwm p).comp = s.comp := rfl
@[simp] theorem State.setPwm_pwm (p : PwmUnit) (s : State) : (s.setPwm p).pwm = p := rfl
@[simp] theorem State.setPwm_chain (p : PwmUnit) (s : State) : (s.setPwm p).chain = s.chain := rfl
@[simp] theorem State.setPwm_report (p : PwmUnit) (s : State) : (s.setPwm p).report = s.report := rfl
@[simp] theorem State.setPwm_line (p : PwmUnit) (s : State) : (s.setPwm p).line = s.line := rfl
@[simp] theorem State.setPwm_mem (p : PwmUnit) (s : State) : (s.setPwm p).mem = s.mem := rfl
@[simp] theorem State.setPwm_pending (p : PwmUnit) (s : State) : (s.setPwm p).pending = s.pending := rfl
@[simp] theorem State.setPwm_free (p : PwmUnit) (s : State) : (s.setPwm p).free = s.free := rfl

/-! `setChain` -/

@[simp] theorem State.setChain_phase (c : Chain) (s : State) : (s.setChain c).phase = s.phase := rfl
@[simp] theorem State.setChain_pins (c : Chain) (s : State) : (s.setChain c).pins = s.pins := rfl
@[simp] theorem State.setChain_clock (c : Chain) (s : State) : (s.setChain c).clock = s.clock := rfl
@[simp] theorem State.setChain_fade (c : Chain) (s : State) : (s.setChain c).fade = s.fade := rfl
@[simp] theorem State.setChain_working (c : Chain) (s : State) : (s.setChain c).working = s.working := rfl
@[simp] theorem State.setChain_editor (c : Chain) (s : State) : (s.setChain c).editor = s.editor := rfl
@[simp] theorem State.setChain_player (c : Chain) (s : State) : (s.setChain c).player = s.player := rfl
@[simp] theorem State.setChain_arm (c : Chain) (s : State) : (s.setChain c).arm = s.arm := rfl
@[simp] theorem State.setChain_inputs (c : Chain) (s : State) : (s.setChain c).inputs = s.inputs := rfl
@[simp] theorem State.setChain_comp (c : Chain) (s : State) : (s.setChain c).comp = s.comp := rfl
@[simp] theorem State.setChain_pwm (c : Chain) (s : State) : (s.setChain c).pwm = s.pwm := rfl
@[simp] theorem State.setChain_chain (c : Chain) (s : State) : (s.setChain c).chain = c := rfl
@[simp] theorem State.setChain_report (c : Chain) (s : State) : (s.setChain c).report = s.report := rfl
@[simp] theorem State.setChain_line (c : Chain) (s : State) : (s.setChain c).line = s.line := rfl
@[simp] theorem State.setChain_mem (c : Chain) (s : State) : (s.setChain c).mem = s.mem := rfl
@[simp] theorem State.setChain_pending (c : Chain) (s : State) : (s.setChain c).pending = s.pending := rfl
@[simp] theorem State.setChain_free (c : Chain) (s : State) : (s.setChain c).free = s.free := rfl

/-! `setLine` -/

@[simp] theorem State.setLine_phase (l : LineUnit) (s : State) : (s.setLine l).phase = s.phase := rfl
@[simp] theorem State.setLine_pins (l : LineUnit) (s : State) : (s.setLine l).pins = s.pins := rfl
@[simp] theorem State.setLine_clock (l : LineUnit) (s : State) : (s.setLine l).clock = s.clock := rfl
@[simp] theorem State.setLine_fade (l : LineUnit) (s : State) : (s.setLine l).fade = s.fade := rfl
@[simp] theorem State.setLine_working (l : LineUnit) (s : State) : (s.setLine l).working = s.working := rfl
@[simp] theorem State.setLine_editor (l : LineUnit) (s : State) : (s.setLine l).editor = s.editor := rfl
@[simp] theorem State.setLine_player (l : LineUnit) (s : State) : (s.setLine l).player = s.player := rfl
@[simp] theorem State.setLine_arm (l : LineUnit) (s : State) : (s.setLine l).arm = s.arm := rfl
@[simp] theorem State.setLine_inputs (l : LineUnit) (s : State) : (s.setLine l).inputs = s.inputs := rfl
@[simp] theorem State.setLine_comp (l : LineUnit) (s : State) : (s.setLine l).comp = s.comp := rfl
@[simp] theorem State.setLine_pwm (l : LineUnit) (s : State) : (s.setLine l).pwm = s.pwm := rfl
@[simp] theorem State.setLine_chain (l : LineUnit) (s : State) : (s.setLine l).chain = s.chain := rfl
@[simp] theorem State.setLine_report (l : LineUnit) (s : State) : (s.setLine l).report = s.report := rfl
@[simp] theorem State.setLine_line (l : LineUnit) (s : State) : (s.setLine l).line = l := rfl
@[simp] theorem State.setLine_mem (l : LineUnit) (s : State) : (s.setLine l).mem = s.mem := rfl
@[simp] theorem State.setLine_pending (l : LineUnit) (s : State) : (s.setLine l).pending = s.pending := rfl
@[simp] theorem State.setLine_free (l : LineUnit) (s : State) : (s.setLine l).free = s.free := rfl

/-! `setMem` -/

@[simp] theorem State.setMem_phase (m : ShowMemory) (s : State) : (s.setMem m).phase = s.phase := rfl
@[simp] theorem State.setMem_pins (m : ShowMemory) (s : State) : (s.setMem m).pins = s.pins := rfl
@[simp] theorem State.setMem_clock (m : ShowMemory) (s : State) : (s.setMem m).clock = s.clock := rfl
@[simp] theorem State.setMem_fade (m : ShowMemory) (s : State) : (s.setMem m).fade = s.fade := rfl
@[simp] theorem State.setMem_working (m : ShowMemory) (s : State) : (s.setMem m).working = s.working := rfl
@[simp] theorem State.setMem_editor (m : ShowMemory) (s : State) : (s.setMem m).editor = s.editor := rfl
@[simp] theorem State.setMem_player (m : ShowMemory) (s : State) : (s.setMem m).player = s.player := rfl
@[simp] theorem State.setMem_arm (m : ShowMemory) (s : State) : (s.setMem m).arm = s.arm := rfl
@[simp] theorem State.setMem_inputs (m : ShowMemory) (s : State) : (s.setMem m).inputs = s.inputs := rfl
@[simp] theorem State.setMem_comp (m : ShowMemory) (s : State) : (s.setMem m).comp = s.comp := rfl
@[simp] theorem State.setMem_pwm (m : ShowMemory) (s : State) : (s.setMem m).pwm = s.pwm := rfl
@[simp] theorem State.setMem_chain (m : ShowMemory) (s : State) : (s.setMem m).chain = s.chain := rfl
@[simp] theorem State.setMem_report (m : ShowMemory) (s : State) : (s.setMem m).report = s.report := rfl
@[simp] theorem State.setMem_line (m : ShowMemory) (s : State) : (s.setMem m).line = s.line := rfl
@[simp] theorem State.setMem_mem (m : ShowMemory) (s : State) : (s.setMem m).mem = m := rfl
@[simp] theorem State.setMem_pending (m : ShowMemory) (s : State) : (s.setMem m).pending = s.pending := rfl
@[simp] theorem State.setMem_free (m : ShowMemory) (s : State) : (s.setMem m).free = s.free := rfl

/-! `setClock` -/

@[simp] theorem State.setClock_phase (c : Clock) (s : State) : (s.setClock c).phase = s.phase := rfl
@[simp] theorem State.setClock_pins (c : Clock) (s : State) : (s.setClock c).pins = s.pins := rfl
@[simp] theorem State.setClock_clock (c : Clock) (s : State) : (s.setClock c).clock = c := rfl
@[simp] theorem State.setClock_fade (c : Clock) (s : State) : (s.setClock c).fade = s.fade := rfl
@[simp] theorem State.setClock_working (c : Clock) (s : State) : (s.setClock c).working = s.working := rfl
@[simp] theorem State.setClock_editor (c : Clock) (s : State) : (s.setClock c).editor = s.editor := rfl
@[simp] theorem State.setClock_player (c : Clock) (s : State) : (s.setClock c).player = s.player := rfl
@[simp] theorem State.setClock_arm (c : Clock) (s : State) : (s.setClock c).arm = s.arm := rfl
@[simp] theorem State.setClock_inputs (c : Clock) (s : State) : (s.setClock c).inputs = s.inputs := rfl
@[simp] theorem State.setClock_comp (c : Clock) (s : State) : (s.setClock c).comp = s.comp := rfl
@[simp] theorem State.setClock_pwm (c : Clock) (s : State) : (s.setClock c).pwm = s.pwm := rfl
@[simp] theorem State.setClock_chain (c : Clock) (s : State) : (s.setClock c).chain = s.chain := rfl
@[simp] theorem State.setClock_report (c : Clock) (s : State) : (s.setClock c).report = s.report := rfl
@[simp] theorem State.setClock_line (c : Clock) (s : State) : (s.setClock c).line = s.line := rfl
@[simp] theorem State.setClock_mem (c : Clock) (s : State) : (s.setClock c).mem = s.mem := rfl
@[simp] theorem State.setClock_pending (c : Clock) (s : State) : (s.setClock c).pending = s.pending := rfl
@[simp] theorem State.setClock_free (c : Clock) (s : State) : (s.setClock c).free = s.free := rfl

/-! `setPins` -/

@[simp] theorem State.setPins_phase (p : Pins) (s : State) : (s.setPins p).phase = s.phase := rfl
@[simp] theorem State.setPins_pins (p : Pins) (s : State) : (s.setPins p).pins = p := rfl
@[simp] theorem State.setPins_clock (p : Pins) (s : State) : (s.setPins p).clock = s.clock := rfl
@[simp] theorem State.setPins_fade (p : Pins) (s : State) : (s.setPins p).fade = s.fade := rfl
@[simp] theorem State.setPins_working (p : Pins) (s : State) : (s.setPins p).working = s.working := rfl
@[simp] theorem State.setPins_editor (p : Pins) (s : State) : (s.setPins p).editor = s.editor := rfl
@[simp] theorem State.setPins_player (p : Pins) (s : State) : (s.setPins p).player = s.player := rfl
@[simp] theorem State.setPins_arm (p : Pins) (s : State) : (s.setPins p).arm = s.arm := rfl
@[simp] theorem State.setPins_inputs (p : Pins) (s : State) : (s.setPins p).inputs = s.inputs := rfl
@[simp] theorem State.setPins_comp (p : Pins) (s : State) : (s.setPins p).comp = s.comp := rfl
@[simp] theorem State.setPins_pwm (p : Pins) (s : State) : (s.setPins p).pwm = s.pwm := rfl
@[simp] theorem State.setPins_chain (p : Pins) (s : State) : (s.setPins p).chain = s.chain := rfl
@[simp] theorem State.setPins_report (p : Pins) (s : State) : (s.setPins p).report = s.report := rfl
@[simp] theorem State.setPins_line (p : Pins) (s : State) : (s.setPins p).line = s.line := rfl
@[simp] theorem State.setPins_mem (p : Pins) (s : State) : (s.setPins p).mem = s.mem := rfl
@[simp] theorem State.setPins_pending (p : Pins) (s : State) : (s.setPins p).pending = s.pending := rfl
@[simp] theorem State.setPins_free (p : Pins) (s : State) : (s.setPins p).free = s.free := rfl

/-! `tookFree` and `withPending` -/

@[simp] theorem State.tookFree_phase (s : State) : s.tookFree.phase = s.phase := rfl
@[simp] theorem State.tookFree_pins (s : State) : s.tookFree.pins = s.pins := rfl
@[simp] theorem State.tookFree_clock (s : State) : s.tookFree.clock = s.clock := rfl
@[simp] theorem State.tookFree_fade (s : State) : s.tookFree.fade = s.fade := rfl
@[simp] theorem State.tookFree_working (s : State) : s.tookFree.working = s.working := rfl
@[simp] theorem State.tookFree_editor (s : State) : s.tookFree.editor = s.editor := rfl
@[simp] theorem State.tookFree_player (s : State) : s.tookFree.player = s.player := rfl
@[simp] theorem State.tookFree_arm (s : State) : s.tookFree.arm = s.arm := rfl
@[simp] theorem State.tookFree_inputs (s : State) : s.tookFree.inputs = s.inputs := rfl
@[simp] theorem State.tookFree_comp (s : State) : s.tookFree.comp = s.comp := rfl
@[simp] theorem State.tookFree_pwm (s : State) : s.tookFree.pwm = s.pwm := rfl
@[simp] theorem State.tookFree_chain (s : State) : s.tookFree.chain = s.chain := rfl
@[simp] theorem State.tookFree_report (s : State) : s.tookFree.report = s.report := rfl
@[simp] theorem State.tookFree_line (s : State) : s.tookFree.line = s.line := rfl
@[simp] theorem State.tookFree_mem (s : State) : s.tookFree.mem = s.mem := rfl
@[simp] theorem State.tookFree_pending (s : State) : s.tookFree.pending = s.pending := rfl
@[simp] theorem State.tookFree_free (s : State) : s.tookFree.free = s.free + 1 := rfl

@[simp] theorem State.withPending_phase (cs : List Instr) (s : State) : (s.withPending cs).phase = s.phase := rfl
@[simp] theorem State.withPending_pins (cs : List Instr) (s : State) : (s.withPending cs).pins = s.pins := rfl
@[simp] theorem State.withPending_clock (cs : List Instr) (s : State) : (s.withPending cs).clock = s.clock := rfl
@[simp] theorem State.withPending_fade (cs : List Instr) (s : State) : (s.withPending cs).fade = s.fade := rfl
@[simp] theorem State.withPending_working (cs : List Instr) (s : State) : (s.withPending cs).working = s.working := rfl
@[simp] theorem State.withPending_editor (cs : List Instr) (s : State) : (s.withPending cs).editor = s.editor := rfl
@[simp] theorem State.withPending_player (cs : List Instr) (s : State) : (s.withPending cs).player = s.player := rfl
@[simp] theorem State.withPending_arm (cs : List Instr) (s : State) : (s.withPending cs).arm = s.arm := rfl
@[simp] theorem State.withPending_inputs (cs : List Instr) (s : State) : (s.withPending cs).inputs = s.inputs := rfl
@[simp] theorem State.withPending_comp (cs : List Instr) (s : State) : (s.withPending cs).comp = s.comp := rfl
@[simp] theorem State.withPending_pwm (cs : List Instr) (s : State) : (s.withPending cs).pwm = s.pwm := rfl
@[simp] theorem State.withPending_chain (cs : List Instr) (s : State) : (s.withPending cs).chain = s.chain := rfl
@[simp] theorem State.withPending_report (cs : List Instr) (s : State) : (s.withPending cs).report = s.report := rfl
@[simp] theorem State.withPending_line (cs : List Instr) (s : State) : (s.withPending cs).line = s.line := rfl
@[simp] theorem State.withPending_mem (cs : List Instr) (s : State) : (s.withPending cs).mem = s.mem := rfl
@[simp] theorem State.withPending_pending (cs : List Instr) (s : State) : (s.withPending cs).pending = cs := rfl
@[simp] theorem State.withPending_free (cs : List Instr) (s : State) : (s.withPending cs).free = s.free := rfl

/-! What a block's own reading sees -/

@[simp] theorem State.setFade_now (f : FadeEngine) (s : State) : (s.setFade f).now = s.now := rfl
@[simp] theorem State.setFade_slot (f : FadeEngine) (s : State) (k : Fin 8) : (s.setFade f).slot k = s.slot k := rfl
@[simp] theorem State.setFade_bank (f : FadeEngine) (s : State) (b : Bank) : (s.setFade f).bank b = s.bank b := rfl
@[simp] theorem State.setPlayer_now (p : Player) (s : State) : (s.setPlayer p).now = s.now := rfl
@[simp] theorem State.setPlayer_chan (p : Player) (s : State) (k : Chan) : (s.setPlayer p).chan k = s.chan k := rfl
@[simp] theorem State.setPlayer_slot (p : Player) (s : State) (k : Fin 8) : (s.setPlayer p).slot k = s.slot k := rfl
@[simp] theorem State.setPlayer_bank (p : Player) (s : State) (b : Bank) : (s.setPlayer p).bank b = s.bank b := rfl
@[simp] theorem State.setReport_now (r : ReportUnit) (s : State) : (s.setReport r).now = s.now := rfl
@[simp] theorem State.setReport_chan (r : ReportUnit) (s : State) (k : Chan) : (s.setReport r).chan k = s.chan k := rfl
@[simp] theorem State.setReport_slot (r : ReportUnit) (s : State) (k : Fin 8) : (s.setReport r).slot k = s.slot k := rfl
@[simp] theorem State.setReport_bank (r : ReportUnit) (s : State) (b : Bank) : (s.setReport r).bank b = s.bank b := rfl
@[simp] theorem State.setArm_now (a : ArmMonitor) (s : State) : (s.setArm a).now = s.now := rfl
@[simp] theorem State.setArm_chan (a : ArmMonitor) (s : State) (k : Chan) : (s.setArm a).chan k = s.chan k := rfl
@[simp] theorem State.setArm_slot (a : ArmMonitor) (s : State) (k : Fin 8) : (s.setArm a).slot k = s.slot k := rfl
@[simp] theorem State.setArm_bank (a : ArmMonitor) (s : State) (b : Bank) : (s.setArm a).bank b = s.bank b := rfl
@[simp] theorem State.setWorking_now (w : Show) (s : State) : (s.setWorking w).now = s.now := rfl
@[simp] theorem State.setWorking_chan (w : Show) (s : State) (k : Chan) : (s.setWorking w).chan k = s.chan k := rfl
@[simp] theorem State.setWorking_bank (w : Show) (s : State) (b : Bank) : (s.setWorking w).bank b = s.bank b := rfl
@[simp] theorem State.setEditor_now (e : Editor) (s : State) : (s.setEditor e).now = s.now := rfl
@[simp] theorem State.setEditor_chan (e : Editor) (s : State) (k : Chan) : (s.setEditor e).chan k = s.chan k := rfl
@[simp] theorem State.setEditor_slot (e : Editor) (s : State) (k : Fin 8) : (s.setEditor e).slot k = s.slot k := rfl
@[simp] theorem State.setEditor_bank (e : Editor) (s : State) (b : Bank) : (s.setEditor e).bank b = s.bank b := rfl
@[simp] theorem State.setInputs_now (u : InputUnit) (s : State) : (s.setInputs u).now = s.now := rfl
@[simp] theorem State.setInputs_chan (u : InputUnit) (s : State) (k : Chan) : (s.setInputs u).chan k = s.chan k := rfl
@[simp] theorem State.setInputs_slot (u : InputUnit) (s : State) (k : Fin 8) : (s.setInputs u).slot k = s.slot k := rfl
@[simp] theorem State.setInputs_bank (u : InputUnit) (s : State) (b : Bank) : (s.setInputs u).bank b = s.bank b := rfl
@[simp] theorem State.setComp_now (c : Compositor) (s : State) : (s.setComp c).now = s.now := rfl
@[simp] theorem State.setComp_chan (c : Compositor) (s : State) (k : Chan) : (s.setComp c).chan k = s.chan k := rfl
@[simp] theorem State.setComp_slot (c : Compositor) (s : State) (k : Fin 8) : (s.setComp c).slot k = s.slot k := rfl
@[simp] theorem State.setComp_bank (c : Compositor) (s : State) (b : Bank) : (s.setComp c).bank b = s.bank b := rfl
@[simp] theorem State.setPwm_now (p : PwmUnit) (s : State) : (s.setPwm p).now = s.now := rfl
@[simp] theorem State.setPwm_chan (p : PwmUnit) (s : State) (k : Chan) : (s.setPwm p).chan k = s.chan k := rfl
@[simp] theorem State.setPwm_slot (p : PwmUnit) (s : State) (k : Fin 8) : (s.setPwm p).slot k = s.slot k := rfl
@[simp] theorem State.setPwm_bank (p : PwmUnit) (s : State) (b : Bank) : (s.setPwm p).bank b = s.bank b := rfl
@[simp] theorem State.setChain_now (c : Chain) (s : State) : (s.setChain c).now = s.now := rfl
@[simp] theorem State.setChain_chan (c : Chain) (s : State) (k : Chan) : (s.setChain c).chan k = s.chan k := rfl
@[simp] theorem State.setChain_slot (c : Chain) (s : State) (k : Fin 8) : (s.setChain c).slot k = s.slot k := rfl
@[simp] theorem State.setChain_bank (c : Chain) (s : State) (b : Bank) : (s.setChain c).bank b = s.bank b := rfl
@[simp] theorem State.setLine_now (l : LineUnit) (s : State) : (s.setLine l).now = s.now := rfl
@[simp] theorem State.setLine_chan (l : LineUnit) (s : State) (k : Chan) : (s.setLine l).chan k = s.chan k := rfl
@[simp] theorem State.setLine_slot (l : LineUnit) (s : State) (k : Fin 8) : (s.setLine l).slot k = s.slot k := rfl
@[simp] theorem State.setLine_bank (l : LineUnit) (s : State) (b : Bank) : (s.setLine l).bank b = s.bank b := rfl
@[simp] theorem State.setMem_now (m : ShowMemory) (s : State) : (s.setMem m).now = s.now := rfl
@[simp] theorem State.setMem_chan (m : ShowMemory) (s : State) (k : Chan) : (s.setMem m).chan k = s.chan k := rfl
@[simp] theorem State.setMem_slot (m : ShowMemory) (s : State) (k : Fin 8) : (s.setMem m).slot k = s.slot k := rfl
@[simp] theorem State.setClock_chan (c : Clock) (s : State) (k : Chan) : (s.setClock c).chan k = s.chan k := rfl
@[simp] theorem State.setClock_slot (c : Clock) (s : State) (k : Fin 8) : (s.setClock c).slot k = s.slot k := rfl
@[simp] theorem State.setClock_bank (c : Clock) (s : State) (b : Bank) : (s.setClock c).bank b = s.bank b := rfl
@[simp] theorem State.setPins_now (p : Pins) (s : State) : (s.setPins p).now = s.now := rfl
@[simp] theorem State.setPins_chan (p : Pins) (s : State) (k : Chan) : (s.setPins p).chan k = s.chan k := rfl
@[simp] theorem State.setPins_slot (p : Pins) (s : State) (k : Fin 8) : (s.setPins p).slot k = s.slot k := rfl
@[simp] theorem State.setPins_bank (p : Pins) (s : State) (b : Bank) : (s.setPins p).bank b = s.bank b := rfl

end Sys2Proof.Machine
end

