-- ==== Sys2Proof/Laws/Tables.lean ====
section
/-! SUPPORT. What tables answer: an entry after a replacement, a tabulated entry, and how many entries meet a test. -/

namespace Sys2Proof.Machine

variable {α : Type} {n : Nat}

@[simp] theorem Table.at_put_self (t : Table α n) (i : Fin n) (x : α) : Table.at (Table.put t i x) i = x := by
  simp [Table.at, Table.put]

@[simp] theorem Table.at_put_ne {i j : Fin n} (t : Table α n) (x : α) (h : i ≠ j) :
    Table.at (Table.put t i x) j = Table.at t j := by
  have h' : i.val ≠ j.val := fun e => h (Fin.ext e)
  simp [Table.at, Table.put, Vector.getElem_set_ne, h']

theorem Table.at_put (t : Table α n) (i j : Fin n) (x : α) :
    Table.at (Table.put t i x) j = if i = j then x else Table.at t j := by
  split
  · next h => subst h; simp
  · next h => simp [h]

@[simp] theorem at_tabulate (f : Fin n → α) (i : Fin n) : Table.at (tabulate f) i = f i := by
  simp [Table.at, tabulate]

@[simp] theorem Table.at_replicate (x : α) (i : Fin n) : Table.at (Vector.replicate n x) i = x := by
  simp [Table.at]

theorem Table.ext_at {t u : Table α n} (h : ∀ i, Table.at t i = Table.at u i) : t = u := by
  apply Vector.ext
  intro i hi
  exact h ⟨i, hi⟩

@[simp] theorem Table.put_at_self (t : Table α n) (i : Fin n) : Table.put t i (Table.at t i) = t := by
  apply Table.ext_at
  intro j
  rw [Table.at_put]
  split <;> simp_all

/-- An entry is one of the entries. -/
theorem Table.mem_entries {t : Table α n} {x : α} : x ∈ t.entries ↔ ∃ i, Table.at t i = x := by
  simp [Table.entries]

@[simp] theorem Table.length_entries (t : Table α n) : t.entries.length = n := by simp [Table.entries]

/-- Replacing one entry changes the number of entries that meet a test only by that entry. -/
theorem Table.countP_put (p : α → Bool) (t : Table α n) (i : Fin n) (x : α) :
    (Table.put t i x).entries.countP p + (if p (Table.at t i) then 1 else 0)
      = t.entries.countP p + (if p x then 1 else 0) := by
  have listCount : ∀ l : List (Fin n), ∀ u : Table α n,
      (l.map u.at).countP p = (l.map fun j => if p (Table.at u j) then 1 else 0).sum := by
    intro l u
    induction l with
    | nil => rfl
    | cons j rest ih => simp [List.countP_cons, ih, Nat.add_comm]
  have count : ∀ u : Table α n, u.entries.countP p = ∑ j : Fin n, (if p (Table.at u j) then 1 else 0) := by
    intro u
    rw [Fin.sum_univ_def, Table.entries, listCount]
  rw [count, count]
  rw [← Finset.add_sum_erase _ _ (Finset.mem_univ i), ← Finset.add_sum_erase _ _ (Finset.mem_univ i)]
  have rest : ∑ j ∈ Finset.univ.erase i, (if p (Table.at (Table.put t i x) j) then 1 else 0)
      = ∑ j ∈ Finset.univ.erase i, (if p (Table.at t j) then 1 else 0) := by
    apply Finset.sum_congr rfl
    intro j hj
    rw [Table.at_put_ne t x (Finset.ne_of_mem_erase hj).symm]
  rw [rest, Table.at_put_self]
  omega

end Sys2Proof.Machine
end

