-- ==== Sys2Proof/Laws/Frames.lean ====
section
/-! SUPPORT. What the operations of playback, direct control and armed actions may change: the fade engine, the player,
the report unit by offers only, and what waits at the arm monitor. -/

namespace Sys2Proof.Machine

/-! ## The relations -/

/-- The report unit has taken offers, under one mask and at one instant. -/
def Offered (mask : BitVec 9) (now : Time) (u v : ReportUnit) : Prop :=
  Relation.ReflTransGen (fun x y => ∃ d, y = x.offer mask now d) u v

/-- `t` comes from `s` by an operation of playback: everything but the fade engine, the player, the report unit and
the CUE_DONEs that wait at the arm monitor stands as before; the report unit has taken offers, and CUE_DONEs were
added behind those that waited. -/
structure Played (s t : State) : Prop where
  phase : t.phase = s.phase
  pins : t.pins = s.pins
  clock : t.clock = s.clock
  working : t.working = s.working
  editor : t.editor = s.editor
  inputs : t.inputs = s.inputs
  comp : t.comp = s.comp
  pwm : t.pwm = s.pwm
  chain : t.chain = s.chain
  line : t.line = s.line
  mem : t.mem = s.mem
  pending : t.pending = s.pending
  free : t.free = s.free
  memory : t.arm.memory = s.arm.memory
  fired : t.arm.fired = s.arm.fired
  inbox : ∃ more, t.arm.inbox = s.arm.inbox ++ more
  report : Offered s.working.params.reportEnable s.now s.report t.report

theorem Played.refl (s : State) : Played s s :=
  ⟨rfl, rfl, rfl, rfl, rfl, rfl, rfl, rfl, rfl, rfl, rfl, rfl, rfl, rfl, rfl, ⟨[], by simp⟩, .refl⟩

theorem Played.now {s t : State} (h : Played s t) : t.now = s.now := congrArg Clock.engineTime h.clock

theorem Played.trans {s t u : State} (h : Played s t) (k : Played t u) : Played s u where
  phase := k.phase.trans h.phase
  pins := k.pins.trans h.pins
  clock := k.clock.trans h.clock
  working := k.working.trans h.working
  editor := k.editor.trans h.editor
  inputs := k.inputs.trans h.inputs
  comp := k.comp.trans h.comp
  pwm := k.pwm.trans h.pwm
  chain := k.chain.trans h.chain
  line := k.line.trans h.line
  mem := k.mem.trans h.mem
  pending := k.pending.trans h.pending
  free := k.free.trans h.free
  memory := k.memory.trans h.memory
  fired := k.fired.trans h.fired
  inbox := by
    obtain ⟨a, ha⟩ := h.inbox
    obtain ⟨b, hb⟩ := k.inbox
    exact ⟨a ++ b, by rw [hb, ha, List.append_assoc]⟩
  report := by
    have hr := k.report
    rw [h.now, h.working] at hr
    exact Relation.ReflTransGen.trans h.report hr

/-- A block replaced by playback. -/
theorem Played.setFade (f : FadeEngine) (s : State) : Played s (s.setFade f) :=
  ⟨rfl, rfl, rfl, rfl, rfl, rfl, rfl, rfl, rfl, rfl, rfl, rfl, rfl, rfl, rfl, ⟨[], by simp⟩, .refl⟩

theorem Played.setPlayer (p : Player) (s : State) : Played s (s.setPlayer p) :=
  ⟨rfl, rfl, rfl, rfl, rfl, rfl, rfl, rfl, rfl, rfl, rfl, rfl, rfl, rfl, rfl, ⟨[], by simp⟩, .refl⟩

theorem Played.setChan (c : Chan) (r : Channel) (s : State) : Played s (s.setChan c r) := Played.setFade _ s

/-- A fold of operations of playback is one. -/
theorem Played.foldl {β : Type} (f : State → β → State) (h : ∀ s b, Played s (f s b)) (l : List β) (s : State) :
    Played s (l.foldl f s) := by
  induction l generalizing s with
  | nil => exact Played.refl s
  | cons b rest ih => exact (h s b).trans (ih (f s b))

/-- A fold that carries a second value beside the state. -/
theorem Played.foldlPair {β γ : Type} (f : State × γ → β → State × γ) (h : ∀ a b, Played a.1 (f a b).1)
    (l : List β) (a : State × γ) : Played a.1 (l.foldl f a).1 := by
  induction l generalizing a with
  | nil => exact Played.refl a.1
  | cons b rest ih => exact (h a b).trans (ih (f a b))

/-! ## Offers and accounting -/

theorem offer_played (d : Report) (s : State) : Played s (offer d s) :=
  ⟨rfl, rfl, rfl, rfl, rfl, rfl, rfl, rfl, rfl, rfl, rfl, rfl, rfl, rfl, rfl, ⟨[], by simp [offer]⟩,
    .single ⟨d, rfl⟩⟩

theorem offerCueDone_played (n : Nat) (how : How) (s : State) : Played s (offerCueDone n how s) :=
  ⟨rfl, rfl, rfl, rfl, rfl, rfl, rfl, rfl, rfl, rfl, rfl, rfl, rfl, rfl, rfl, ⟨[⟨n, false⟩], rfl⟩, .single ⟨_, rfl⟩⟩

@[simp] theorem offer_fade (d : Report) (s : State) : (offer d s).fade = s.fade := rfl
@[simp] theorem offer_player (d : Report) (s : State) : (offer d s).player = s.player := rfl
@[simp] theorem offer_arm (d : Report) (s : State) : (offer d s).arm = s.arm := rfl
@[simp] theorem offer_chan (d : Report) (s : State) (c : Chan) : (offer d s).chan c = s.chan c := rfl
@[simp] theorem offer_report (d : Report) (s : State) :
    (offer d s).report = s.report.offer s.working.params.reportEnable s.now d := rfl
@[simp] theorem offerCueDone_fade (n : Nat) (how : How) (s : State) : (offerCueDone n how s).fade = s.fade := rfl
@[simp] theorem offerCueDone_player (n : Nat) (how : How) (s : State) :
    (offerCueDone n how s).player = s.player := rfl
@[simp] theorem offerCueDone_chan (n : Nat) (how : How) (s : State) (c : Chan) :
    (offerCueDone n how s).chan c = s.chan c := rfl
@[simp] theorem offerCueDone_inbox (n : Nat) (how : How) (s : State) :
    (offerCueDone n how s).arm.inbox = s.arm.inbox ++ [⟨n, false⟩] := rfl

theorem accountCue_played (hold : Hold) (n : Nat) (cut : Bool) (s : State) : Played s (accountCue hold n cut s) := by
  unfold accountCue
  split
  · exact Played.refl s
  · dsimp only
    split
    · exact (Played.setPlayer _ s).trans (offerCueDone_played _ _ _)
    · exact Played.setPlayer _ s

/-- The accounting of cues does not touch the fade engine. -/
@[simp] theorem accountCue_fade (hold : Hold) (n : Nat) (cut : Bool) (s : State) :
    (accountCue hold n cut s).fade = s.fade := by
  unfold accountCue
  split
  · rfl
  · dsimp only
    split <;> rfl

theorem accountTag_played (hold : Hold) (t : Nat) (cut : Bool) (s : State) : Played s (accountTag hold t cut s) := by
  unfold accountTag
  split
  · exact Played.refl s
  · dsimp only
    split
    · exact (Played.setFade _ s).trans (offer_played _ _)
    · exact Played.setFade _ s

/-- The accounting of tags touches no channel record. -/
@[simp] theorem accountTag_chans (hold : Hold) (t : Nat) (cut : Bool) (s : State) :
    (accountTag hold t cut s).fade.chans = s.fade.chans := by
  unfold accountTag
  split
  · rfl
  · dsimp only
    split <;> rfl

/-- The accounting of tags does not touch the player. -/
@[simp] theorem accountTag_player (hold : Hold) (t : Nat) (cut : Bool) (s : State) :
    (accountTag hold t cut s).player = s.player := by
  unfold accountTag
  split
  · rfl
  · dsimp only
    split <;> rfl

theorem endNotice_played (hold : Hold) (o : Owner) (cut : Bool) (s : State) : Played s (endNotice hold o cut s) := by
  unfold endNotice
  split
  · exact accountCue_played _ _ _ _
  · split
    · exact Played.refl s
    · exact accountTag_played _ _ _ _
  · exact Played.refl s

/-- An end notice changes no channel record. -/
@[simp] theorem endNotice_chans (hold : Hold) (o : Owner) (cut : Bool) (s : State) :
    (endNotice hold o cut s).fade.chans = s.fade.chans := by
  unfold endNotice
  split
  · simp
  · split <;> simp
  · rfl

@[simp] theorem endNotice_chan (hold : Hold) (o : Owner) (cut : Bool) (s : State) (c : Chan) :
    (endNotice hold o cut s).chan c = s.chan c := by simp [State.chan]

/-! ## Channel records -/

@[simp] theorem State.setChan_chan_self (c : Chan) (r : Channel) (s : State) : (s.setChan c r).chan c = r := by
  simp [State.chan, State.setChan]

@[simp] theorem State.setChan_chan_ne {c d : Chan} (r : Channel) (s : State) (h : c ≠ d) :
    (s.setChan c r).chan d = s.chan d := by
  simp [State.chan, State.setChan, h]

theorem State.setChan_chan (c d : Chan) (r : Channel) (s : State) :
    (s.setChan c r).chan d = if c = d then r else s.chan d := by
  split
  · next h => subst h; simp
  · next h => simp [h]

@[simp] theorem State.setChan_player (c : Chan) (r : Channel) (s : State) : (s.setChan c r).player = s.player := rfl
@[simp] theorem State.setChan_now (c : Chan) (r : Channel) (s : State) : (s.setChan c r).now = s.now := rfl
@[simp] theorem State.setChan_working (c : Chan) (r : Channel) (s : State) :
    (s.setChan c r).working = s.working := rfl
@[simp] theorem State.setChan_tags (c : Chan) (r : Channel) (s : State) :
    (s.setChan c r).fade.tags = s.fade.tags := rfl

theorem removeContext_played (hold : Hold) (c : Chan) (s : State) : Played s (removeContext hold c s) := by
  unfold removeContext
  split
  · exact Played.refl s
  · exact (Played.setChan _ _ s).trans (endNotice_played _ _ _ _)

/-- After the removal of a channel's context only that channel's fade is gone. -/
theorem removeContext_chan (hold : Hold) (c d : Chan) (s : State) :
    (removeContext hold c s).chan d = if c = d then { s.chan d with fade := none } else s.chan d := by
  unfold removeContext
  split
  · next h =>
    split
    · next e =>
      subst e
      show s.chan c = { s.chan c with fade := none }
      rw [← h]
    · rfl
  · simp only [endNotice_chan, State.setChan_chan]
    split
    · next e => subst e; rfl
    · rfl

theorem startRequest_played (hold : Hold) (q : StartReq) (s : State) : Played s (startRequest hold q s).1 := by
  unfold startRequest
  split
  · exact Played.refl s
  · dsimp only
    split
    · exact (removeContext_played _ _ s).trans (Played.setChan _ _ _)
    · exact (removeContext_played _ _ s).trans (Played.setChan _ _ _)

/-- The channel record that a start request leaves on the channel it names (R18 to R20). -/
def Channel.started (now : Time) (q : StartReq) (r : Channel) : Channel :=
  if r.isParked then r
  else if q.duration = 0 then ⟨q.target, r.park, none, .owned q.owner⟩
  else ⟨r.level, r.park, some ⟨r.level, q.target, q.curve, q.duration, 0, now, q.owner, false⟩, .owned q.owner⟩

/-- A start request changes one channel record only, as R18 to R20 state. -/
theorem startRequest_chan (hold : Hold) (q : StartReq) (s : State) (d : Chan) :
    (startRequest hold q s).1.chan d = if q.channel = d then (s.chan d).started s.now q else s.chan d := by
  unfold startRequest Channel.started
  split
  · next h => split <;> simp_all
  · next h =>
    have hn : (removeContext hold q.channel s).now = s.now := (removeContext_played hold q.channel s).now
    dsimp only
    split
    · simp only [State.setChan_chan, removeContext_chan]
      split <;> simp_all
    · simp only [State.setChan_chan, removeContext_chan, hn]
      split <;> simp_all

/-- The result of a start request is decided by the channel's park and the duration (R18). -/
theorem startRequest_result (hold : Hold) (q : StartReq) (s : State) :
    (startRequest hold q s).2
      = if (s.chan q.channel).isParked then .parked else if q.duration = 0 then .set else .started := by
  unfold startRequest
  split
  · simp_all
  · dsimp only
    split <;> simp_all

theorem clearSched_played (hold : Hold) (set : Chan → Bool) (s : State) : Played s (clearSched hold set s) := by
  unfold clearSched
  exact (Played.setPlayer _ s).trans (Played.foldl _ (fun _ _ => accountCue_played _ _ _ _) _ _)

/-- The accounting of cues leaves the scheduled start list, the position, the follow timer and resume_to. -/
theorem accountCue_player (hold : Hold) (n : Nat) (cut : Bool) (s : State) :
    (accountCue hold n cut s).player.sched = s.player.sched
      ∧ (accountCue hold n cut s).player.position = s.player.position
      ∧ (accountCue hold n cut s).player.follow = s.player.follow
      ∧ (accountCue hold n cut s).player.resumeTo = s.player.resumeTo := by
  unfold accountCue
  split
  · simp
  · dsimp only
    split <;> simp [Player.dropEntry, Player.putEntry]

theorem foldl_accountCue_fade {β : Type} (f : State → β → State) (h : ∀ s b, (f s b).fade = s.fade) (l : List β)
    (s : State) : (l.foldl f s).fade = s.fade := by
  induction l generalizing s with
  | nil => rfl
  | cons b rest ih => exact (ih (f s b)).trans (h s b)

/-- A channel clearing request does not touch the fade engine. -/
@[simp] theorem clearSched_fade (hold : Hold) (set : Chan → Bool) (s : State) :
    (clearSched hold set s).fade = s.fade := by
  unfold clearSched
  dsimp only
  exact foldl_accountCue_fade _ (fun s b => accountCue_fade hold (Sched.owner b) true s) _ _

@[simp] theorem clearSched_chan (hold : Hold) (set : Chan → Bool) (s : State) (c : Chan) :
    (clearSched hold set s).chan c = s.chan c := by simp [State.chan]

/-- A channel clearing request removes exactly the scheduled starts on the channels of the set (R66). -/
theorem clearSched_sched (hold : Hold) (set : Chan → Bool) (s : State) :
    (clearSched hold set s).player.sched = s.player.sched.filter (fun e => !set e.channel) := by
  unfold clearSched
  have keep : ∀ (l : List Sched) (u : State),
      (l.foldl (fun s e => accountCue hold e.owner true s) u).player.sched = u.player.sched := by
    intro l
    induction l with
    | nil => intro u; rfl
    | cons e rest ih => intro u; rw [List.foldl_cons, ih, (accountCue_player hold e.owner true u).1]
  rw [keep]
  rfl

/-! ## The player -/

theorem thawRequest_played (s : State) : Played s (thawRequest s) := Played.setFade _ s
theorem freezeRequest_played (s : State) : Played s (freezeRequest s) := Played.setFade _ s

/-- What `mapFades` does to one channel record. -/
@[simp] theorem FadeEngine.mapFades_at (g : Fade → Fade) (f : FadeEngine) (c : Chan) :
    Table.at (f.mapFades g).chans c = { Table.at f.chans c with fade := (Table.at f.chans c).fade.map g } := by
  simp [FadeEngine.mapFades]

theorem goThaw_played (s : State) : Played s (goThaw s) := by
  unfold goThaw
  split
  · exact (thawRequest_played s).trans (Played.setPlayer _ _)
  · exact Played.refl s

theorem goAction_played (n : Nat) (acc : State × Nat) (a : Action) : Played acc.1 (goAction n acc a).1 := by
  unfold goAction
  dsimp only
  split
  · exact Played.refl _
  · split
    · exact (clearSched_played _ _ _).trans (startRequest_played _ _ _)
    · exact (clearSched_played _ _ _).trans (Played.setPlayer _ _)

theorem goActions_played (q : Cue) (s : State) : Played s (goActions q s).1 :=
  Played.foldlPair (goAction q.number) (goAction_played q.number) q.actions (s, 0)

theorem goSettle_played (q : Cue) (source : Source) (skipped : Nat) (s : State) :
    Played s (goSettle q source skipped s) := by
  unfold goSettle
  dsimp only
  have base := Played.setPlayer ((s.player.settleEntry q.number (s.owned q.number)).settleState s.now q) s
  generalize s.setPlayer ((s.player.settleEntry q.number (s.owned q.number)).settleState s.now q) = u at base ⊢
  have said : Played s (if source = .host then u else offer (.cueStarted q.number skipped source) u) := by
    split
    · exact base
    · exact base.trans (offer_played _ _)
  generalize (if source = .host then u else offer (.cueStarted q.number skipped source) u) = v at said ⊢
  split
  · exact said.trans (offerCueDone_played _ _ _)
  · exact said

theorem goOperation_played (q : Cue) (source : Source) (s : State) : Played s (goOperation q source s).1 := by
  unfold goOperation
  exact ((goThaw_played s).trans (goActions_played q _)).trans (goSettle_played q source _ _)

theorem goRequest_played (k : GoKind) (source : Source) (s : State) : Played s (goRequest k source s).1 := by
  unfold goRequest
  split
  · exact Played.refl s
  · exact goOperation_played _ _ _

/-- A GO that no cue answers changes nothing (R56 to R58). -/
theorem goRequest_refused (k : GoKind) (source : Source) (s : State) (st : Status) (h : chooseCue k s = .error st) :
    goRequest k source s = (s, .refused st) := by
  unfold goRequest
  rw [h]

/-- A GO that a cue answers runs the GO operation (R59). -/
theorem goRequest_started (k : GoKind) (source : Source) (s : State) (q : Cue) (h : chooseCue k s = .ok q) :
    goRequest k source s
      = ((goOperation q source s).1, .started q.number (goOperation q source s).2) := by
  unfold goRequest
  rw [h]

theorem goOrListEnd_played (source : Source) (s : State) : Played s (goOrListEnd source s) := by
  have h := goRequest_played .go source s
  unfold goOrListEnd
  split
  · next e => rw [e] at h; exact h
  · next e => rw [e] at h; exact h.trans (offer_played _ _)

theorem expireSched_played (e : Sched) (s : State) : Played s (expireSched e s) := by
  unfold expireSched
  dsimp only
  have h := (Played.setPlayer { s.player with sched := s.player.sched.tail } s).trans
    (startRequest_played .none ⟨e.channel, e.target, e.time, e.curve, .cue e.owner⟩ _)
  split
  · next x => rw [x] at h; exact h.trans (accountCue_played _ _ _ _)
  · next x => rw [x] at h; exact h

theorem expireFollow_played (s : State) : Played s (expireFollow s) := by
  unfold expireFollow
  dsimp only
  have h := (Played.setPlayer { s.player with follow := none } s).trans (goRequest_played .go .follow _)
  split
  · next x => rw [x] at h; exact h
  · next x => rw [x] at h; exact (h.trans (offer_played _ _)).trans (Played.setPlayer _ _)

theorem pauseNow_played (was : ResumeTo) (s : State) : Played s (pauseNow was s) :=
  (freezeRequest_played s).trans (Played.setPlayer _ _)

theorem pauseRequest_played (s : State) : Played s (pauseRequest s).1 := by
  unfold pauseRequest
  split
  · exact pauseNow_played _ _
  · exact pauseNow_played _ _
  · exact Played.refl s
  · exact Played.refl s

theorem resumeRequest_played (s : State) : Played s (resumeRequest s).1 := by
  unfold resumeRequest
  split
  · exact (thawRequest_played s).trans (Played.setPlayer _ _)
  · exact Played.refl s

theorem releaseChannel_played (time : Nat) (acc : State × Nat) (c : Chan) :
    Played acc.1 (releaseChannel time acc c).1 := by
  unfold releaseChannel
  dsimp only
  split
  · exact Played.refl _
  · split
    · exact startRequest_played _ _ _
    · exact Played.refl _

theorem releaseEntries_played (s : State) : Played s (releaseEntries s) :=
  Played.foldl _ (fun _ _ => (Played.setPlayer _ _).trans (offerCueDone_played _ _ _)) _ _

theorem releaseNow_played (time : Nat) (s : State) : Played s (releaseNow time s).1 := by
  unfold releaseNow
  dsimp only
  exact (((Played.setPlayer _ s).trans (releaseEntries_played _)).trans
    (Played.foldlPair (releaseChannel time) (releaseChannel_played time) channels (_, 0))).trans (Played.setPlayer _ _)

/-! ## Direct control -/

theorem fadeChannel_played (target time curve tag : Nat) (acc : State × FadeCounts) (c : Chan) :
    Played acc.1 (fadeChannel target time curve tag acc c).1 := by
  have h := startRequest_played ⟨none, some tag⟩ ⟨c, target, time, curve, .direct tag⟩ acc.1
  unfold fadeChannel
  split <;> (next e => rw [e] at h; exact h)

theorem openBatch_played (tag : Nat) (s : State) : Played s (openBatch tag s) := by
  unfold openBatch
  split
  · exact Played.refl s
  · exact Played.setFade _ s

theorem settleBatch_played (tag : Nat) (s : State) : Played s (settleBatch tag s) := by
  unfold settleBatch
  split
  · exact Played.refl s
  · split
    · exact Played.refl s
    · dsimp only
      split
      · exact (Played.setFade _ s).trans (offer_played _ _)
      · exact Played.setFade _ s

theorem fadeNow_played (mask : ChanMask) (target time curve tag : Nat) (s : State) :
    Played s (fadeNow mask target time curve tag s).1 := by
  have opened := (openBatch_played tag s).trans
    (clearSched_played .none (fun c => decide (c ∈ s.unparkedOf mask)) (openBatch tag s))
  have faded := Played.foldlPair (fadeChannel target time curve tag) (fadeChannel_played target time curve tag)
    (s.unparkedOf mask) (clearSched .none (fun c => decide (c ∈ s.unparkedOf mask)) (openBatch tag s),
      ⟨0, 0, (maskChannels mask).length - (s.unparkedOf mask).length⟩)
  exact (opened.trans faded).trans (settleBatch_played _ _)

theorem fadeRequest_played (mask : ChanMask) (target time curve tag : Nat) (s : State) :
    Played s (fadeRequest mask target time curve tag s).1 := by
  unfold fadeRequest
  split
  · exact Played.refl s
  · exact fadeNow_played _ _ _ _ _ _

theorem parkChannel_played (level : Nat) (s : State) (c : Chan) : Played s (parkChannel level s c) :=
  (removeContext_played _ _ s).trans (Played.setChan _ _ _)

theorem parkNow_played (mask : ChanMask) (level : Nat) (s : State) : Played s (parkNow mask level s) :=
  (clearSched_played _ _ s).trans (Played.foldl _ (parkChannel_played level) _ _)

theorem unparkNow_played (mask : ChanMask) (s : State) : Played s (unparkNow mask s) := Played.setFade _ s

theorem masterRequest_played (level time : Nat) (s : State) : Played s (masterRequest level time s).1 := by
  unfold masterRequest
  split
  · exact Played.refl s
  · split <;> exact Played.setFade _ s

/-! ## Frame events -/

theorem advanceChannel_played (c : Chan) (s : State) : Played s (advanceChannel c s) := by
  unfold advanceChannel
  split
  · exact Played.refl s
  · split
    · exact Played.refl s
    · dsimp only
      split
      · exact (Played.setChan _ _ s).trans (endNotice_played _ _ _ _)
      · exact Played.setChan _ _ s

theorem advanceChannels_played (s : State) : Played s (advanceChannels s) :=
  Played.foldl _ (fun s c => advanceChannel_played c s) _ _

theorem advanceMaster_played (s : State) : Played s (advanceMaster s) := by
  unfold advanceMaster
  split
  · exact Played.refl s
  · dsimp only
    split <;> exact Played.setFade _ s

theorem frameAdvance_played (s : State) : Played s (frameAdvance s) :=
  (advanceChannels_played s).trans (advanceMaster_played _)

/-! ## Armed actions -/

theorem armGo_played (k : GoKind) (s : State) : Played s (armGo k s).1 := goRequest_played k .arm s

/-- The action of a slot is an operation of playback (R107). -/
theorem runArmAction_played (a : ArmAction) (s : State) : Played s (runArmAction a s).1 := by
  cases a with
  | go => exact armGo_played _ s
  | goTo n => exact armGo_played _ s
  | back => exact armGo_played _ s
  | pause => exact pauseRequest_played s
  | resume => exact resumeRequest_played s
  | release time =>
    have h := releaseNow_played time s
    rw [runArmAction]
    dsimp only
    exact h
  | fade mask target time curve =>
    rw [runArmAction]
    dsimp only
    exact fadeRequest_played mask target time curve 0 s
  | setMaster level time => exact masterRequest_played level time s

end Sys2Proof.Machine
end

