-- ==== Sys2Proof/Laws/Armed.lean ====
section
/-! SUPPORT. What an arrival at the arm monitor may change: what its actions change, and the arm monitor itself. -/

namespace Sys2Proof.Machine

/-- `t` comes from `s` by arrivals at the arm monitor: everything but the fade engine, the player, the report unit, the
arm monitor and the arming table stands as before, and the report unit has taken offers. -/
structure Acted (s t : State) : Prop where
  phase : t.phase = s.phase
  pins : t.pins = s.pins
  clock : t.clock = s.clock
  working : t.working = { s.working with arms := t.working.arms }
  editor : t.editor = s.editor
  inputs : t.inputs = s.inputs
  comp : t.comp = s.comp
  pwm : t.pwm = s.pwm
  chain : t.chain = s.chain
  line : t.line = s.line
  mem : t.mem = s.mem
  pending : t.pending = s.pending
  free : t.free = s.free
  report : Offered s.working.params.reportEnable s.now s.report t.report

theorem Acted.refl (s : State) : Acted s s := ⟨rfl, rfl, rfl, rfl, rfl, rfl, rfl, rfl, rfl, rfl, rfl, rfl, rfl, .refl⟩

theorem Acted.now {s t : State} (h : Acted s t) : t.now = s.now := congrArg Clock.engineTime h.clock

theorem Acted.params {s t : State} (h : Acted s t) : t.working.params = s.working.params := by rw [h.working]

theorem Acted.trans {s t u : State} (h : Acted s t) (k : Acted t u) : Acted s u where
  phase := k.phase.trans h.phase
  pins := k.pins.trans h.pins
  clock := k.clock.trans h.clock
  working := by rw [k.working, h.working]
  editor := k.editor.trans h.editor
  inputs := k.inputs.trans h.inputs
  comp := k.comp.trans h.comp
  pwm := k.pwm.trans h.pwm
  chain := k.chain.trans h.chain
  line := k.line.trans h.line
  mem := k.mem.trans h.mem
  pending := k.pending.trans h.pending
  free := k.free.trans h.free
  report := by
    have hr := k.report
    rw [h.now, h.params] at hr
    exact Relation.ReflTransGen.trans h.report hr

/-- An operation of playback is all that an arrival may do. -/
theorem Played.acted {s t : State} (h : Played s t) : Acted s t where
  phase := h.phase
  pins := h.pins
  clock := h.clock
  working := by rw [h.working]
  editor := h.editor
  inputs := h.inputs
  comp := h.comp
  pwm := h.pwm
  chain := h.chain
  line := h.line
  mem := h.mem
  pending := h.pending
  free := h.free
  report := h.report

theorem Acted.setArm (a : ArmMonitor) (s : State) : Acted s (s.setArm a) :=
  ⟨rfl, rfl, rfl, rfl, rfl, rfl, rfl, rfl, rfl, rfl, rfl, rfl, rfl, .refl⟩

theorem Acted.setFade (f : FadeEngine) (s : State) : Acted s (s.setFade f) := (Played.setFade f s).acted

theorem Acted.putSlot (k : Fin 8) (d : Option ArmDef) (s : State) : Acted s (s.putSlot k d) :=
  ⟨rfl, rfl, rfl, rfl, rfl, rfl, rfl, rfl, rfl, rfl, rfl, rfl, rfl, .refl⟩

theorem Acted.foldl {β : Type} (f : State → β → State) (h : ∀ s b, Acted s (f s b)) (l : List β) (s : State) :
    Acted s (l.foldl f s) := by
  induction l generalizing s with
  | nil => exact Acted.refl s
  | cons b rest ih => exact (h s b).trans (ih (f s b))

/-! ## What waits at the arm monitor -/

@[simp] theorem putAhead_report (old : Nat) (s : State) : (putAhead old s).report = s.report := rfl
@[simp] theorem putAhead_fade (old : Nat) (s : State) : (putAhead old s).fade = s.fade := rfl
@[simp] theorem putAhead_player (old : Nat) (s : State) : (putAhead old s).player = s.player := rfl
@[simp] theorem putAhead_working (old : Nat) (s : State) : (putAhead old s).working = s.working := rfl
@[simp] theorem putAhead_fired (old : Nat) (s : State) : (putAhead old s).arm.fired = s.arm.fired := rfl
@[simp] theorem putAhead_memory (old : Nat) (s : State) : (putAhead old s).arm.memory = s.arm.memory := rfl

theorem putAhead_acted (old : Nat) (s : State) : Acted s (putAhead old s) := Acted.setArm _ s

/-- What waits behind the older CUE_DONEs is put ahead of the next snapshot, and nothing else is (R110, R117). -/
theorem putAhead_inbox {s : State} {base more : List Arrival} (h : s.arm.inbox = base ++ more) :
    (putAhead base.length s).arm.inbox = base ++ more.map fun a => { a with ahead := true } := by
  simp [putAhead, h]

/-- `t` has CUE_DONEs waiting behind those in `old`, all of them to be taken before the next snapshot. -/
def WaitsAhead (old : List Arrival) (t : State) : Prop :=
  ∃ more, t.arm.inbox = old ++ more ∧ ∀ a ∈ more, a.ahead = true

theorem WaitsAhead.refl (s : State) : WaitsAhead s.arm.inbox s := ⟨[], by simp, by simp⟩

theorem WaitsAhead.trans {old : List Arrival} {s t : State} (h : WaitsAhead old s) (k : WaitsAhead s.arm.inbox t) :
    WaitsAhead old t := by
  obtain ⟨a, ha, pa⟩ := h
  obtain ⟨b, hb, pb⟩ := k
  exact ⟨a ++ b, by rw [hb, ha, List.append_assoc], fun x hx => (List.mem_append.mp hx).elim (pa x) (pb x)⟩

theorem WaitsAhead.foldl {β : Type} (f : State → β → State) (h : ∀ s b, WaitsAhead s.arm.inbox (f s b)) (l : List β)
    (s : State) : WaitsAhead s.arm.inbox (l.foldl f s) := by
  induction l generalizing s with
  | nil => exact WaitsAhead.refl s
  | cons b rest ih => exact (h s b).trans (ih (f s b))

/-! ## Firing -/

/-- The slot is disarmed when it fires in mode ONCE (R108 step 2). -/
def onceEmptied (d : ArmDef) (k : Fin 8) (s : State) : State :=
  if d.mode = .once then
    (s.putSlot k none).setArm { (s.putSlot k none).arm with memory := Table.put (s.putSlot k none).arm.memory k none }
  else s

/-- A firing, step by step (R108). -/
theorem fireSlot_eq (s : State) (k : Fin 8) (d : ArmDef) (clear : Table.at s.arm.fired k = false)
    (armed : s.slot k = some d) :
    fireSlot s k
      = let u := onceEmptied d k (s.setArm { s.arm with fired := Table.put s.arm.fired k true })
        putAhead u.arm.inbox.length
          (offer (.armFired k d.action (runArmAction d.action u).2) (runArmAction d.action u).1) := by
  unfold fireSlot
  rw [clear, armed]
  rfl

theorem fireSlot_of_fired (s : State) (k : Fin 8) (h : Table.at s.arm.fired k = true) : fireSlot s k = s := by
  unfold fireSlot
  rw [h]
  rfl

theorem fireSlot_of_empty (s : State) (k : Fin 8) (h : s.slot k = none) : fireSlot s k = s := by
  unfold fireSlot
  rw [h]
  split <;> rfl

theorem onceEmptied_acted (d : ArmDef) (k : Fin 8) (s : State) : Acted s (onceEmptied d k s) := by
  unfold onceEmptied
  split
  · exact (Acted.putSlot k none s).trans (Acted.setArm _ _)
  · exact Acted.refl s

theorem fireSlot_acted (s : State) (k : Fin 8) : Acted s (fireSlot s k) := by
  cases hf : Table.at s.arm.fired k with
  | true =>
    rw [fireSlot_of_fired s k hf]
    exact Acted.refl s
  | false =>
    cases hs : s.slot k with
    | none =>
      rw [fireSlot_of_empty s k hs]
      exact Acted.refl s
    | some d =>
      rw [fireSlot_eq s k d hf hs]
      exact ((((Acted.setArm _ s).trans (onceEmptied_acted d k _)).trans (runArmAction_played d.action _).acted).trans
        (offer_played _ _).acted).trans (Acted.setArm _ _)

@[simp] theorem onceEmptied_inbox (d : ArmDef) (k : Fin 8) (s : State) :
    (onceEmptied d k s).arm.inbox = s.arm.inbox := by
  unfold onceEmptied
  split <;> rfl

/-- The CUE_DONEs that a firing causes are to be taken before the next snapshot (R110). -/
theorem fireSlot_inbox (s : State) (k : Fin 8) : WaitsAhead s.arm.inbox (fireSlot s k) := by
  cases hf : Table.at s.arm.fired k with
  | true =>
    rw [fireSlot_of_fired s k hf]
    exact WaitsAhead.refl s
  | false =>
    cases hs : s.slot k with
    | none =>
      rw [fireSlot_of_empty s k hs]
      exact WaitsAhead.refl s
    | some d =>
      rw [fireSlot_eq s k d hf hs]
      dsimp only
      generalize hu : onceEmptied d k (s.setArm { s.arm with fired := Table.put s.arm.fired k true }) = u
      have base : u.arm.inbox = s.arm.inbox := by simp [← hu]
      obtain ⟨more, hm⟩ := (runArmAction_played d.action u).inbox
      refine ⟨more.map fun a => { a with ahead := true }, ?_, by simp⟩
      rw [putAhead_inbox (base := u.arm.inbox) (more := more) (by simpa using hm), base]

theorem fireSlots_inbox (l : List (Fin 8)) (s : State) : WaitsAhead s.arm.inbox (fireSlots l s) :=
  WaitsAhead.foldl _ fireSlot_inbox l s

theorem fireSlots_acted (l : List (Fin 8)) (s : State) : Acted s (fireSlots l s) := Acted.foldl _ fireSlot_acted l s

theorem takeArrival_acted (n : Nat) (s : State) : Acted s (takeArrival n s) := fireSlots_acted _ s

theorem takeArrival_inbox (n : Nat) (s : State) : WaitsAhead s.arm.inbox (takeArrival n s) := fireSlots_inbox _ s

theorem takeCueDone_acted (s : State) : Acted s (takeCueDone s) := by
  unfold takeCueDone
  split
  · exact Acted.refl s
  · exact (Acted.setArm _ s).trans (takeArrival_acted _ _)

theorem takeInputEvent_acted (i : Input) (active : Bool) (s : State) : Acted s (takeInputEvent i active s) :=
  fireSlots_acted _ s

theorem takeSnapshot_acted (p : Snapshot) (s : State) : Acted s (takeSnapshot p s) :=
  (Acted.setArm _ s).trans (fireSlots_acted _ _)

theorem takeAhead_acted (s : State) : Acted s (takeAhead s) :=
  (Acted.setArm _ s).trans (Acted.foldl _ (fun s a => takeArrival_acted (Arrival.cue a) s) _ _)

/-- A round leaves the CUE_DONEs that may be taken on either side of the snapshot, and what its firings caused. -/
theorem takeAhead_inbox (s : State) : WaitsAhead (s.arm.inbox.filter fun a => !a.ahead) (takeAhead s) :=
  WaitsAhead.foldl (fun s a => takeArrival (Arrival.cue a) s) (fun s a => takeArrival_inbox a.cue s)
    (s.arm.inbox.filter Arrival.ahead) (s.setArm { s.arm with inbox := s.arm.inbox.filter fun a => !a.ahead })

theorem takeAllAhead_acted (s : State) : Acted s (takeAllAhead s) :=
  Acted.foldl (fun s _ => takeAhead s) (fun s _ => takeAhead_acted s) _ s

theorem takeSnapshot_inbox (p : Snapshot) (s : State) : WaitsAhead s.arm.inbox (takeSnapshot p s) :=
  (WaitsAhead.refl s).trans (fireSlots_inbox _ (s.setArm _))

/-! ## The input lines -/

/-- A line that moves touches its pin and the input unit alone (R119). -/
theorem lineGoes_eq (i : Input) (l : Level) (s : State) :
    lineGoes i l s = { s with pins := { s.pins with lines := Table.put s.pins.lines i l }
                              inputs := (lineGoes i l s).inputs } := by
  unfold lineGoes
  dsimp only
  split <;> rfl

/-- A sample changes no debounced level. -/
@[simp] theorem lineGoes_level (i : Input) (l : Level) (s : State) :
    (lineGoes i l s).inputs.level = s.inputs.level := by
  unfold lineGoes
  dsimp only
  split <;> rfl

theorem inputGo_acted (active : Bool) (s : State) : Acted s (inputGo active s) := by
  unfold inputGo
  split
  · exact (goOrListEnd_played _ s).acted
  · exact Acted.refl s

end Sys2Proof.Machine
end

