-- ==== Sys2Proof/Laws/Memory.lean ====
section
/-! SUPPORT. The canonical form of memories, kept by every operation, and reading after writing. -/

namespace Sys2Proof.Machine

/-! ## The canonical form -/

theorem wfFrom_mono {low low' : Nat} (m : Memory) (h : low' ≤ low) (w : wfFrom low m = true) :
    wfFrom low' m = true := by
  cases m with
  | nil => rfl
  | cons e rest =>
    obtain ⟨a, v⟩ := e
    simp only [wfFrom, Bool.and_eq_true, decide_eq_true_eq] at w ⊢
    exact ⟨⟨h.trans w.1.1, w.1.2⟩, w.2⟩

theorem wfFrom_listed {low a : Nat} (v : Byte) (m : Memory) (h : low ≤ a) (w : wfFrom (a + 1) m = true) :
    wfFrom low (listed a v m) = true := by
  unfold listed
  split
  · exact wfFrom_mono m (by omega) w
  · next hv =>
    simp only [wfFrom, Bool.and_eq_true, decide_eq_true_eq, bne_iff_ne, ne_eq]
    exact ⟨⟨h, hv⟩, w⟩

theorem wfFrom_writeByte (m : Memory) (low a : Nat) (v : Byte) (h : low ≤ a) (w : wfFrom low m = true) :
    wfFrom low (writeByte m a v) = true := by
  induction m generalizing low with
  | nil => exact wfFrom_listed v [] h rfl
  | cons e rest ih =>
    obtain ⟨b, x⟩ := e
    simp only [wfFrom, Bool.and_eq_true, decide_eq_true_eq] at w
    unfold writeByte
    split
    · next lt =>
      simp only [wfFrom, Bool.and_eq_true, decide_eq_true_eq]
      exact ⟨w.1, ih (b + 1) (by omega) w.2⟩
    · split
      · next eq =>
        subst eq
        exact wfFrom_listed v rest h w.2
      · apply wfFrom_listed v _ h
        simp only [wfFrom, Bool.and_eq_true, decide_eq_true_eq]
        exact ⟨⟨by omega, w.1.2⟩, w.2⟩

/-- A byte written keeps the canonical form. -/
theorem writeByte_wf (m : Memory) (a : Nat) (v : Byte) (w : m.wf = true) : Memory.wf (writeByte m a v) = true :=
  wfFrom_writeByte m 0 a v (Nat.zero_le a) w

/-- Bytes written keep the canonical form. -/
theorem writeBytes_wf (m : Memory) (a : Nat) (vs : List Byte) (w : m.wf = true) :
    Memory.wf (writeBytes m a vs) = true := by
  induction vs generalizing m a with
  | nil => exact w
  | cons v rest ih => exact ih (writeByte m a v) (a + 1) (writeByte_wf m a v w)

theorem wfFrom_bytesFrom (f : Nat → Byte) (low n : Nat) : wfFrom low (bytesFrom f low n) = true := by
  induction n generalizing low with
  | zero => rfl
  | succ n ih => exact wfFrom_listed (f low) _ (le_refl low) (ih (low + 1))

/-- What an erase that is stopped leaves stands in canonical form. -/
theorem partlyErased_wf (k : Nat) : Memory.wf (partlyErased k) = true :=
  writeBytes_wf _ 0 _ (wfFrom_bytesFrom _ 0 _)

/-- Writes that are stopped keep the canonical form. -/
theorem writesStopped_wf (k reached : Nat) (writes : List (Nat × List Byte)) (m : Memory) (w : m.wf = true) :
    Memory.wf (writesStopped k reached writes m) = true := by
  induction writes generalizing reached m with
  | nil => cases reached <;> exact w
  | cons x rest ih =>
    cases reached with
    | zero => exact writeBytes_wf m x.1 _ w
    | succ n => exact ih n _ (writeBytes_wf m x.1 x.2 w)

/-- What a programming that is stopped leaves stands in canonical form. -/
theorem partlyProgrammed_wf (k : Nat) (staging m : Memory) (w : m.wf = true) :
    Memory.wf (partlyProgrammed k staging m) = true :=
  writesStopped_wf k _ _ m w

/-! ## Reading after writing -/

theorem readByte_listed (a b : Nat) (v : Byte) (m : Memory) :
    readByte (listed a v m) b = if a = b then (if v = blankByte then readByte m b else v) else readByte m b := by
  unfold listed
  split
  · split <;> simp_all
  · simp [readByte]

/-- A byte below the addresses of a memory in canonical form is blank. -/
theorem readByte_below (m : Memory) (low a : Nat) (h : a < low) (w : wfFrom low m = true) :
    readByte m a = blankByte := by
  induction m generalizing low with
  | nil => rfl
  | cons e rest ih =>
    obtain ⟨b, x⟩ := e
    simp only [wfFrom, Bool.and_eq_true, decide_eq_true_eq] at w
    have hb : b ≠ a := by omega
    simp only [readByte, hb, if_false]
    exact ih (b + 1) (by omega) w.2

theorem readByte_writeByte_self (m : Memory) (low a : Nat) (v : Byte) (h : low ≤ a) (w : wfFrom low m = true) :
    readByte (writeByte m a v) a = v := by
  induction m generalizing low with
  | nil =>
    rw [writeByte, readByte_listed]
    simp only [readByte, if_true]
    split <;> simp_all
  | cons e rest ih =>
    obtain ⟨b, x⟩ := e
    simp only [wfFrom, Bool.and_eq_true, decide_eq_true_eq] at w
    unfold writeByte
    split
    · next lt =>
      have hb : b ≠ a := by omega
      simp only [readByte, hb, if_false]
      exact ih (b + 1) (by omega) w.2
    · split
      · next eq =>
        subst eq
        rw [readByte_listed]
        simp only [if_true]
        split
        · next hv =>
          subst hv
          exact readByte_below rest (b + 1) b (by omega) w.2
        · rfl
      · rw [readByte_listed]
        simp only [if_true]
        split
        · next hv =>
          subst hv
          have hb : b ≠ a := by omega
          simp only [readByte, hb, if_false]
          exact readByte_below rest (b + 1) a (by omega) w.2
        · rfl

/-- A byte written reads back. -/
theorem readByte_writeByte (m : Memory) (a : Nat) (v : Byte) (w : m.wf = true) : readByte (writeByte m a v) a = v :=
  readByte_writeByte_self m 0 a v (Nat.zero_le a) w

/-- A write leaves every other byte. -/
theorem readByte_writeByte_ne (m : Memory) (a b : Nat) (v : Byte) (h : a ≠ b) :
    readByte (writeByte m a v) b = readByte m b := by
  induction m with
  | nil => rw [writeByte, readByte_listed, if_neg h]
  | cons e rest ih =>
    obtain ⟨c, x⟩ := e
    unfold writeByte
    split
    · simp only [readByte, ih]
    · split
      · next eq =>
        subst eq
        rw [readByte_listed, if_neg h]
        simp [readByte, h]
      · rw [readByte_listed, if_neg h]

/-- Bytes written from an address upward leave the bytes below it. -/
theorem readByte_writeBytes_below (m : Memory) (a b : Nat) (vs : List Byte) (h : b < a) :
    readByte (writeBytes m a vs) b = readByte m b := by
  induction vs generalizing m a with
  | nil => rfl
  | cons v rest ih => rw [writeBytes, ih (writeByte m a v) (a + 1) (by omega), readByte_writeByte_ne m a b v (by omega)]

/-- Writes from an address upward that are stopped leave the bytes below it. -/
theorem readByte_writesStopped_below (k reached low b : Nat) (writes : List (Nat × List Byte)) (m : Memory)
    (h : ∀ x ∈ writes, low ≤ x.1) (lt : b < low) : readByte (writesStopped k reached writes m) b = readByte m b := by
  induction writes generalizing reached m with
  | nil => cases reached <;> rfl
  | cons x rest ih =>
    have below : b < x.1 := Nat.lt_of_lt_of_le lt (h x (List.mem_cons_self ..))
    cases reached with
    | zero => exact readByte_writeBytes_below m x.1 b _ below
    | succ n =>
      exact (ih n _ fun y hy => h y (List.mem_cons_of_mem x hy)).trans (readByte_writeBytes_below m x.1 b _ below)

/-- A programming that is stopped leaves the magic as it stood (R195, R199). -/
theorem readByte_partlyProgrammed_magic (k b : Nat) (staging m : Memory) (h : b < 4) :
    readByte (partlyProgrammed k staging m) b = readByte m b :=
  readByte_writesStopped_below k _ 4 b _ m (by simp [programWrites]; omega) h

/-- Bytes written read back. -/
theorem readBytes_writeBytes (m : Memory) (a : Nat) (vs : List Byte) (w : m.wf = true) :
    readBytes (writeBytes m a vs) a vs.length = vs := by
  induction vs generalizing m a with
  | nil => rfl
  | cons v rest ih =>
    have tail := ih (writeByte m a v) (a + 1) (writeByte_wf m a v w)
    have head : readByte (writeBytes (writeByte m a v) (a + 1) rest) a = v := by
      rw [readByte_writeBytes_below _ _ _ _ (Nat.lt_succ_self a), readByte_writeByte m a v w]
    simp only [readBytes] at tail ⊢
    rw [List.length_cons, List.range_succ_eq_map, List.map_cons, List.map_map]
    have shift : ((fun k => readByte (writeBytes m a (v :: rest)) (a + k)) ∘ Nat.succ)
        = fun k => readByte (writeBytes (writeByte m a v) (a + 1) rest) (a + 1 + k) := by
      funext k
      simp only [Function.comp, writeBytes]
      congr 1
      omega
    rw [shift, tail]
    simp only [writeBytes, Nat.add_zero, head]

end Sys2Proof.Machine
end

