-- ==== Sys2Proof/Laws/Bank.lean ====
section
/-! SUPPORT. What the check of a bank reads back from the bytes of a bank. -/

namespace Sys2Proof.Machine

/-- A window of written bytes reads back as that window. -/
theorem readBytes_window (bytes : List Byte) (k n : Nat) (h : k + n ≤ bytes.length) :
    readBytes (writeBytes [] 0 bytes) k n = (bytes.drop k).take n := by
  have whole := readBytes_writeBytes [] 0 bytes rfl
  have each : ∀ j, (hj : j < bytes.length) → readByte (writeBytes [] 0 bytes) j = bytes[j] := by
    intro j hj
    have at_j := congrArg (fun l => l[j]?) whole
    simpa [readBytes, hj] using at_j
  apply List.ext_getElem
  · simp [readBytes]
    omega
  · intro j h1 h2
    simp [readBytes] at h1
    simp [readBytes, each (k + j) (by omega)]

theorem littleEndian_byte2 (n : Nat) (h : n < 65536) : littleEndian (byte2 n) = n := by
  simp [littleEndian, byte2]
  omega

theorem littleEndian_byte4 (n : Nat) (h : n < 4294967296) : littleEndian (byte4 n) = n := by
  simp [littleEndian, byte4]
  omega

/-- The bytes of a bank with an image of a length that R211 allows pass the check, with the show of the image. -/
theorem checkBank_bankBytes (g : Nat) (image : List Byte) (w : Show) (hg : g < 4294967296)
    (lo : 492 ≤ image.length) (hi : image.length ≤ 5740) (h : Show.ofImage image = some w) :
    checkBank (writeBytes [] 0 (bankBytes g image)) = some (g, w) := by
  have len : (bankBytes g image).length = 14 + image.length := by
    simp [bankBytes, bankHeader, byte4, byte2]
    omega
  have magic_at : readBytes (writeBytes [] 0 (bankBytes g image)) 0 4 = byte4 magic := by
    rw [readBytes_window _ _ _ (by omega)]
    rfl
  have generation_at : readBytes (writeBytes [] 0 (bankBytes g image)) 4 4 = byte4 g := by
    rw [readBytes_window _ _ _ (by omega)]
    rfl
  have length_at : readBytes (writeBytes [] 0 (bankBytes g image)) 8 2 = byte2 image.length := by
    rw [readBytes_window _ _ _ (by omega)]
    rfl
  have body_at : readBytes (writeBytes [] 0 (bankBytes g image)) 0 (10 + image.length)
      = bankHeader g image.length ++ image := by
    rw [readBytes_window _ _ _ (by omega)]
    have : (bankHeader g image.length ++ image).length = 10 + image.length := by
      simp [bankHeader, byte4, byte2]
      omega
    rw [List.drop_zero, bankBytes, ← this, List.take_left]
  have image_at : readBytes (writeBytes [] 0 (bankBytes g image)) 10 image.length = image := by
    rw [readBytes_window _ _ _ (by omega)]
    have : (bankBytes g image).drop 10 = image ++ byte4 (crc32 (bankHeader g image.length ++ image)).toNat := rfl
    rw [this, List.take_left]
  have crc_at : readBytes (writeBytes [] 0 (bankBytes g image)) (10 + image.length) 4
      = byte4 (crc32 (bankHeader g image.length ++ image)).toNat := by
    rw [readBytes_window _ _ _ (by omega)]
    have : (bankHeader g image.length ++ image).length = 10 + image.length := by
      simp [bankHeader, byte4, byte2]
      omega
    rw [bankBytes, ← this, List.drop_left]
    rfl
  unfold checkBank
  rw [length_at, littleEndian_byte2 _ (by omega)]
  simp only [magic_at, crc_at, body_at, image_at, generation_at, h, Option.map_some]
  rw [littleEndian_byte4 _ hg, littleEndian_byte4 magic (by decide), littleEndian_byte4 _ (crc32 _).isLt]
  simp
  omega

end Sys2Proof.Machine
end

