-- ==== Sys2Proof/Laws/Line.lean ====
section
/-! SUPPORT. What a whole frame of the host does: taken by the node, taken as a group frame, answered from the cache,
discarded, or not taken. -/

namespace Sys2Proof.Machine

/-- A message row is a frame that arrives. -/
theorem exec_commandOf (h : Hdr) (m : Message) (s : State) :
    exec (commandOf h m) s = .next (frameArrives h m s) := by cases m <;> rfl

/-! ## The state in which a message is taken -/

/-- The end of a whole frame leaves the assembler in HUNT, and counts a frame held before it (R166). -/
theorem frameEnds_eq (s : State) :
    frameEnds s = s.setLine { s.line with rx := .hunt, rxAge := 0, frameErrors := s.line.errorsAfter } := by
  unfold frameEnds dropPartial LineUnit.errorsAfter
  cases e : s.line.rx <;> simp [discardFrame, State.setLine, e]

/-- Taking a frame touches the line interface and, at the end of a silence, the report unit (R169, R187). -/
theorem taken_eq (s : State) :
    s.taken = { s with line := s.taken.line, report := s.taken.report } := by
  unfold State.taken
  rw [frameEnds_eq]
  unfold noteTaken
  split <;> rfl

@[simp] theorem taken_phase (s : State) : s.taken.phase = s.phase := by rw [taken_eq]
@[simp] theorem taken_pins (s : State) : s.taken.pins = s.pins := by rw [taken_eq]
@[simp] theorem taken_clock (s : State) : s.taken.clock = s.clock := by rw [taken_eq]
@[simp] theorem taken_fade (s : State) : s.taken.fade = s.fade := by rw [taken_eq]
@[simp] theorem taken_working (s : State) : s.taken.working = s.working := by rw [taken_eq]
@[simp] theorem taken_editor (s : State) : s.taken.editor = s.editor := by rw [taken_eq]
@[simp] theorem taken_player (s : State) : s.taken.player = s.player := by rw [taken_eq]
@[simp] theorem taken_arm (s : State) : s.taken.arm = s.arm := by rw [taken_eq]
@[simp] theorem taken_inputs (s : State) : s.taken.inputs = s.inputs := by rw [taken_eq]
@[simp] theorem taken_comp (s : State) : s.taken.comp = s.comp := by rw [taken_eq]
@[simp] theorem taken_pwm (s : State) : s.taken.pwm = s.pwm := by rw [taken_eq]
@[simp] theorem taken_chain (s : State) : s.taken.chain = s.chain := by rw [taken_eq]
@[simp] theorem taken_mem (s : State) : s.taken.mem = s.mem := by rw [taken_eq]
@[simp] theorem taken_pending (s : State) : s.taken.pending = s.pending := by rw [taken_eq]
@[simp] theorem taken_free (s : State) : s.taken.free = s.free := by rw [taken_eq]
@[simp] theorem taken_now (s : State) : s.taken.now = s.now := by rw [taken_eq]; rfl
@[simp] theorem taken_chan (s : State) (c : Chan) : s.taken.chan c = s.chan c := by rw [taken_eq]; rfl
@[simp] theorem taken_slot (s : State) (k : Fin 8) : s.taken.slot k = s.slot k := by rw [taken_eq]; rfl
@[simp] theorem taken_bank (s : State) (b : Bank) : s.taken.bank b = s.bank b := by rw [taken_eq]; rfl

/-- Taking a frame leaves the line interface in HUNT and LISTENING with the silence timer restarted (R169, R187). -/
theorem taken_line (s : State) :
    s.taken.line = { s.line with
      rx := .hunt, rxAge := 0, frameErrors := s.line.errorsAfter, silence := .listening, silenceFrom := s.now } := by
  unfold State.taken
  rw [frameEnds_eq]
  unfold noteTaken
  split
  · next e =>
    simp only [State.setLine_line] at e
    simp [restartSilence, e, State.now]
  · rfl

@[simp] theorem taken_ownAddr (s : State) : s.taken.ownAddr = s.ownAddr := by
  unfold State.ownAddr
  rw [taken_line]

/-! ## The judgement of the address -/

theorem destOf_node {addr : Byte} {s : State} (h : NamesNode addr s) : destOf addr s = .node := by
  obtain ⟨lo, hi, eq⟩ := h
  have small : addr.toNat ≤ 62 := by omega
  have zero : addr ≠ 0 := by
    rintro rfl
    simp at eq
    omega
  have own : addr = s.ownAddr := by
    apply BitVec.eq_of_toNat_eq
    rw [eq, State.ownAddr, BitVec.toNat_setWidth]
    exact (Nat.mod_eq_of_lt (by omega)).symm
  have notGroup : ¬ (0x40#8 ≤ addr ∧ addr ≤ 0x4F#8) := by
    intro hg
    have := BitVec.le_def.mp hg.1
    simp at this
    omega
  have n0 : s.line.nodeAddr ≠ 0 := by
    intro e
    rw [e] at lo
    simp at lo
  have n63 : s.line.nodeAddr ≠ 0x3F#6 := by
    intro e
    rw [e] at hi
    simp at hi
  simp only [destOf, zero, if_false, notGroup, n0, n63, ne_eq, not_false_iff, true_and, ← own, if_true]

theorem destOf_group {addr : Byte} {s : State} (h : NamesGroup addr s) : destOf addr s = .group := by
  rcases h with rfl | ⟨g, eq, mem⟩
  · rfl
  · have hg := g.isLt
    have zero : addr ≠ 0 := by
      rintro rfl
      simp only [BitVec.ofNat_eq_ofNat, BitVec.toNat_ofNat, Nat.zero_mod] at eq
      omega
    have range : 0x40#8 ≤ addr ∧ addr ≤ 0x4F#8 := by
      constructor <;> (apply BitVec.le_def.mpr; simp; omega)
    have idx : addr.toNat - 0x40 = g.val := by omega
    simp only [destOf, zero, if_false, range, and_self, if_true, idx, mem]

/-! ## A frame taken -/

theorem frameArrives_listens (h : Hdr) (m : Message) (s : State) (l : Listens s) :
    frameArrives h m s
      = judgeFrame ⟨h.addr, h.seq, kindOf m, lineCheck m⟩ (frameEnds s) := by
  unfold frameArrives hear
  rw [l.1, l.2]
  rfl

theorem setLine_names {addr : Byte} {s : State} (l : LineUnit) (e : l.nodeAddr = s.line.nodeAddr) :
    (NamesNode addr s → NamesNode addr (s.setLine l)) ∧ (NamesGroup addr s → NamesGroup addr (s.setLine l)) := by
  unfold NamesNode NamesGroup
  simp only [State.setLine_line, State.setLine_working, e]
  exact ⟨id, id⟩

theorem judgeFrame_node {f : FrameIn} {s : State} (d : destOf f.addr s = .node) :
    judgeFrame f s = takeNode f (noteTaken s) := by
  unfold judgeFrame
  rw [d]

theorem judgeFrame_group {f : FrameIn} {s : State} (d : destOf f.addr s = .group) :
    judgeFrame f s = takeGroup f (noteTaken s) := by
  unfold judgeFrame
  rw [d]

/-- A node-addressed frame is taken by the node (R169, R170). -/
theorem frameArrives_node (h : Hdr) (m : Message) (s : State) (l : Listens s) (names : NamesNode h.addr s) :
    frameArrives h m s = takeNode ⟨h.addr, h.seq, kindOf m, lineCheck m⟩ s.taken := by
  rw [frameArrives_listens h m s l]
  refine judgeFrame_node (f := ⟨h.addr, h.seq, kindOf m, lineCheck m⟩) (destOf_node ?_)
  rw [frameEnds_eq]
  exact (setLine_names _ rfl).1 names

/-- A group or broadcast frame is taken by the node (R169, R174). -/
theorem frameArrives_group (h : Hdr) (m : Message) (s : State) (l : Listens s) (names : NamesGroup h.addr s) :
    frameArrives h m s = takeGroup ⟨h.addr, h.seq, kindOf m, lineCheck m⟩ s.taken := by
  rw [frameArrives_listens h m s l]
  refine judgeFrame_group (f := ⟨h.addr, h.seq, kindOf m, lineCheck m⟩) (destOf_group ?_)
  rw [frameEnds_eq]
  exact (setLine_names _ rfl).2 names

theorem taken_cached (seq kind : Byte) (s : State) : s.taken.line.cached seq kind = s.line.cached seq kind := by
  rw [taken_line]
  rfl

theorem taken_repeated (seq kind : Byte) (s : State) : s.taken.line.repeated seq kind = s.line.repeated seq kind := by
  rw [taken_line]
  rfl

/-- A new node-addressed frame whose message passes the checks of the line interface is taken by its owning block, and
answered (R170, R171, R173). -/
theorem frameArrives_new (h : Hdr) (m : Message) (s : State) (t : TakesNew h (kindOf m) s)
    (ok : lineCheck m = .ok m) :
    frameArrives h m s
      = answer h.seq (kindOf m) (runMessage .node m s.taken).2 (runMessage .node m s.taken).1 := by
  rw [frameArrives_node h m s t.1 t.2.1]
  unfold takeNode
  dsimp only
  rw [taken_cached, t.2.2, ok]

/-- A new node-addressed frame whose message fails a check of the line interface is answered with its status alone
(R170). -/
theorem frameArrives_failed (h : Hdr) (m : Message) (s : State) (t : TakesNew h (kindOf m) s) (st : Status)
    (bad : lineCheck m = .error st) :
    frameArrives h m s = answer h.seq (kindOf m) ⟨st, []⟩ s.taken := by
  rw [frameArrives_node h m s t.1 t.2.1]
  unfold takeNode
  dsimp only
  rw [taken_cached, t.2.2, bad]

/-- A group or broadcast frame of a permitted kind acts and is not answered (R174, R175). -/
theorem frameArrives_acts (h : Hdr) (m : Message) (s : State) (t : TakesGroup h (kindOf m) s)
    (permitted : groupPermits (kindOf m) = true) (ok : lineCheck m = .ok m) :
    frameArrives h m s = (runMessage .group m (s.filtered h (kindOf m))).1 := by
  rw [frameArrives_group h m s t.1 t.2.1]
  unfold takeGroup
  dsimp only
  rw [taken_repeated, t.2.2, permitted, ok]
  rfl

/-- A command is answered as its owning block answers. -/
theorem answers_new (h : Hdr) (m : Message) (s t : State) (st : Status) (data : List Byte)
    (new : TakesNew h (kindOf m) s) (ok : lineCheck m = .ok m) (run : runMessage .node m s.taken = (t, ⟨st, data⟩)) :
    Answers (commandOf h m) h (kindOf m) s t st data := by
  unfold Answers
  rw [exec_commandOf, frameArrives_new h m s new ok, run]

/-- The checks of the line interface pass a message of the right length that has no reserved field (R170). -/
theorem lineCheck_ok (m : Message) (len : m.lengthOk = true) (res : reservedOk m = true) : lineCheck m = .ok m := by
  unfold lineCheck
  rw [len, res]
  rfl

end Sys2Proof.Machine
end

