-- ==== Sys2Proof/Tests/Slice0.lean ====
section
/-! SUPPORT. Tests from the spec's worked examples and tables, the refusals of WellFormed, and for every statement with
hypotheses a state and operands that meet them. -/

set_option Elab.async false

namespace Sys2Proof.Tests

open Sys2Proof Sys2Proof.Machine

/-! ## WellFormed: one ill-formed command for each check (R208) -/

def own : Hdr := ⟨1, 7⟩
def everyone : Hdr := ⟨0, 9⟩

theorem test_configure_without_a_pair_is_ill_formed : WellFormed (.configure own []) = false := by decide
theorem test_configure_of_eleven_pairs_is_ill_formed :
    WellFormed (.configure own (List.replicate 11 ⟨1, 5⟩)) = false := by decide
theorem test_patch_of_nine_records_is_ill_formed :
    WellFormed (.patch own 1 (List.replicate 9 ⟨1, 0, 2048, 0⟩)) = false := by decide
theorem test_thirteen_points_are_ill_formed :
    WellFormed (.curvePoints own 0 (List.replicate 13 ⟨0, 0⟩)) = false := by decide
theorem test_five_actions_are_ill_formed :
    WellFormed (.cueActions own (List.replicate 5 ⟨1, 0, 0, 0, 0⟩)) = false := by decide
theorem test_arm_with_a_short_action_is_ill_formed :
    WellFormed (.arm own 0 0 [4, 1, 0, 0, 0] [1]) = false := by decide
theorem test_twelve_points_are_well_formed :
    WellFormed (.curvePoints own 0 (List.replicate 12 ⟨0, 0⟩)) = true := by decide

/-! ## The spec's worked values -/

/-- Section 11.2.1: the CRC of a GO to node 12H with SEQ 05H, and its frame. -/
theorem test_crc_of_go : crc16 [0x12, 0x05, 0x20, 0x00] = 0x9F19 := by decide +kernel
theorem test_frame_of_go : hostFrame ⟨0x12, 5⟩ .go = [0xD2, 0x12, 0x05, 0x20, 0x00, 0x19, 0x9F] := by decide +kernel

/-- The curve of section 1.5.1. -/
def quick : List Point := [⟨0, 0⟩, ⟨250, 600⟩, ⟨1000, 1000⟩]

/-- Section 1.5.1: elapsed 3, 403, 1203 and 1998 of 2000 ms from 1000 to 3000, and the fall from 3000 to 1333. -/
theorem test_levels_along_a_curve :
    ([3, 403, 1203, 1998].map fun e => levelAt 1000 3000 (progressOn quick (timeFraction e 2000)))
      = [1004, 1964, 2574, 2998] := by decide
theorem test_falling_level_truncates_toward_zero :
    levelAt 3000 1333 (progressOn quick (timeFraction 403 2000)) = 2197 := by decide

/-- Section 4.5.1: the master from 1000 to 250 in 300 ms, after 3, 148 and 298 ms. -/
theorem test_master_fade :
    ([3, 148, 298].map fun e => levelAt 1000 250 (timeFraction e 300)) = [993, 631, 256] := by decide

/-- The snapshot of section 7.2.1: channel 5 at 4000, channel 6 parked at 1000, channel 7 at 40, master 631. -/
def exampleSnapshot : Snapshot where
  levels := tabulate fun c => if c = 4 then 4000 else if c = 5 then 1000 else if c = 6 then 40 else 0
  parked := tabulate fun c => decide (c = 5)
  master := 631
  progress := tabulate fun _ => none

theorem test_composing_a_snapshot :
    ([⟨some 4, .linear, 2048, 0⟩, ⟨some 4, .square, 2048, 0⟩, ⟨some 5, .linear, 2048, 0⟩,
        ⟨some 6, .linear, 2048, 200⟩, ⟨some 6, .square, 2048, 50⟩, ⟨some 4, .switch, 2048, 0⟩,
        ⟨none, .linear, 2048, 0⟩].map (composeOutput exampleSnapshot false))
      = [2524, 1555, 1000, 200, 0, 4095, 0] := by decide
theorem test_blackout_composes_to_zero :
    composeOutput exampleSnapshot true ⟨some 5, .linear, 2048, 0⟩ = 0 := by decide

/-- R152: the sequence after 255 is 1. -/
theorem test_sequence_wraps_to_one : nextSequence 255 = 1 ∧ nextSequence 1 = 2 := by decide

/-! ## States for the tests -/

/-- The default show with two cues and one user curve. -/
def show2 : Show := { Show.default with
  cues := [⟨1, some 500, [⟨0, 4000, 2000, 0, 1⟩, ⟨1, 100, 0, 0, 0⟩, ⟨2, 7, 10, 300, 0⟩]⟩,
           ⟨4, none, [⟨0, 0, 1000, 0, 0⟩]⟩]
  curves := Table.put Show.default.curves 0 (some quick) }

/-- A running part with that show, at engine time 5000. -/
def ready : State := { State.reset with
  phase := .running
  clock := ⟨5000, 0, some 700⟩
  working := show2
  line := { State.reset.line with silenceFrom := 5000 } }

/-- The state a command leads to. -/
def run (c : Instr) (s : State) : State :=
  match exec c s with
  | .next t => t
  | .fault _ => s
  | .refused _ => s

/-- The reports waiting, without their sequences and times. -/
def offered (s : State) : List Report := s.report.queue.map (·.data)

/-- The status and the data of the reply that waits. -/
def replied (s : State) : List Byte :=
  match s.line.reply with
  | .waiting frame _ => (frame.drop 5).take (frame.length - 7)
  | .sending _ _ => []
  | .idle => []

/-! ## One command each, from the worked examples -/

/-- Section 4.3.1 at 100: FADE of channels 1 and 2 with tag 9 opens a batch of two. -/
theorem test_fade_opens_a_batch :
    (run (.fade own 3 4000 1000 0 9) ready).fade.tags = [⟨9, 2, false⟩] := by decide +kernel

/-- Section 4.3.1 at 1200: FADE with time 0 sets channel 3 at once, and its batch ends COMPLETED. -/
theorem test_fade_without_time_completes_its_tag :
    (run (.fade own 4 2000 0 0 9) ready).fade.tags = []
      ∧ ((run (.fade own 4 2000 0 0 9) ready).chan 2).level = 2000
      ∧ offered (run (.fade own 4 2000 0 0 9) ready) = [.directDone 9 .completed] := by decide +kernel

/-- Section 4.3.1 at 600: a cue takes a channel of the batch over, which then counts 1 and is cut. -/
theorem test_takeover_cuts_a_batch :
    (run (.goTo own 4) { run (.fade own 3 4000 1000 0 9) ready with line := ready.line }).fade.tags
      = [⟨9, 1, true⟩] := by decide +kernel

/-- Section 9.11 at 130,000: the safe cue takes over, and the offers stand in the spec's order. -/
theorem test_silence_starts_the_safe_cue :
    offered (run .silenceTimerExpiry { run (.go own) ready with
      line := { ready.line with silenceFrom := 0 }
      report := ReportUnit.reset
      working := { show2 with
        cues := [⟨1, none, [⟨0, 4000, 2000, 0, 0⟩]⟩, ⟨4, none, [⟨0, 0, 1000, 0, 0⟩, ⟨2, 0, 1000, 0, 0⟩]⟩]
        params := { Params.default with silenceTime := 5, silenceAction := .safe, safeCue := 4 } } })
      = [.cueDone 1 .cut, .cueStarted 4 0 .silence, .silenceBegin .safe] := by decide +kernel

/-- Section 9.11 with the safe cue deleted: LINK_SILENCE(BEGIN, NONE) alone. -/
theorem test_silence_without_the_safe_cue :
    offered (run .silenceTimerExpiry { ready with
      line := { ready.line with silenceFrom := 0 }
      working := { show2 with params := { Params.default with silenceTime := 5, silenceAction := .safe, safeCue := 900 } } })
      = [.silenceBegin .nothing] := by decide +kernel

/-- R61: the reply to GO_TO carries the cue, the actions skipped as parked, and the state RUNNING. -/
theorem test_go_to_replies :
    replied (run (.goTo own 4) ready) = [0x00, 4, 0, 0, 1] := by decide +kernel

/-- R156: POLL of an empty queue carries no record. -/
theorem test_poll_of_an_empty_queue : replied (run (.poll own 0) ready) = [0x00, 0, 0] := by decide +kernel

/-- R199, R211: a blank bank is not valid. -/
theorem test_blank_bank_is_not_valid : checkBank [] = none := by decide +kernel

/-! ## Sound states -/

def playing : State := { run (.go own) ready with line := ready.line, report := ReportUnit.reset }
def paused : State := { run (.pause own) playing with line := ready.line }
def parked : State := { run (.park own 3 300) ready with line := ready.line }
def editing (session : Session) : State := { ready with editor := ⟨session, 5000⟩ }
def storing (phase : StorePhase) : State := { ready with mem := { ready.mem with
  banks := Table.put ready.mem.banks 1 [(0, 1)]
  store := some ⟨phase, 1, 3, 5500⟩ } }
def hearing (held : List Byte) (age : Nat) : State := { ready with line := { ready.line with
  rx := .receiving held, rxAge := age } }
def replying (reply : Reply) (reset : Option ResetMode) : State := { ready with line := { ready.line with
  reply := reply, pendingReset := reset } }

theorem ready_cues : CueListLaw ready.working := by
  refine ⟨by decide +kernel, by decide +kernel, by decide +kernel, ?_⟩
  intro q hq
  have two : q = ⟨1, some 500, [⟨0, 4000, 2000, 0, 1⟩, ⟨1, 100, 0, 0, 0⟩, ⟨2, 7, 10, 300, 0⟩]⟩
      ∨ q = ⟨4, none, [⟨0, 0, 1000, 0, 0⟩]⟩ := by simpa [ready, show2] using hq
  rcases two with rfl | rfl <;> refine ⟨by decide, by decide, ?_, by decide, by decide, ?_⟩ <;>
    first
    | (intro t ht; cases ht <;> decide)
    | (intro a ha; revert a; unfold Action.inRange; decide)

theorem ready_curves : CurveLaw ready.working := by
  refine ⟨by decide +kernel, ?_⟩
  intro k pts h
  have all : ∀ k : Fin 15, (Table.at ready.working.curves k).all shapeOk = true := by decide +kernel
  have this := all k
  rw [h] at this
  exact this

theorem ready_quiet : ∀ c : Chan, ready.chan c = ⟨0, none, none, .nobody⟩ := by decide +kernel

theorem ready_sound : Sound ready where
  park c l h := by simp [ready_quiet] at h
  freeze c f h := by simp [ready_quiet] at h
  sched := by
    refine ⟨by decide +kernel, ?_⟩
    rw [if_neg (by decide)]
    decide +kernel
  live := by
    refine ⟨by decide +kernel, by decide +kernel, ?_⟩
    intro n h
    exact absurd h (by simp [State.owned, FadeEngine.ownedBy, Player.schedOf, ready, State.reset, State.cold,
      FadeEngine.reset, Channel.reset, Player.reset, Table.entries, Table.at])
  tags := by
    refine ⟨by decide +kernel, by decide +kernel, ?_⟩
    intro t _ h
    exact absurd h (by simp [FadeEngine.tagged, ready, State.reset, State.cold, FadeEngine.reset, Channel.reset,
      Table.entries, Table.at])
  position := by unfold PositionLaw; decide +kernel
  player := ⟨rfl, rfl, rfl⟩
  report := by
    refine ⟨by decide, by decide, by decide, by decide, trivial, by decide, by decide⟩
  params := by
    intro id lo hi
    have all : ∀ k : Fin 23, paramOk (k.val + 1) (ready.working.params.value (k.val + 1)) = true := by decide +kernel
    have this := all ⟨id - 1, by omega⟩
    rwa [show id - 1 + 1 = id by omega] at this
  patch := by unfold PatchLaw; decide +kernel
  cues := ready_cues
  curves := ready_curves
  arms k d h := by
    have all : ∀ k : Fin 8, Table.at ready.working.arms k = none := by decide +kernel
    rw [all k] at h
    cases h
  session := trivial
  defined := by
    refine ⟨fun c f h => by simp [ready_quiet] at h, by decide +kernel, by decide +kernel⟩
  chain := by unfold ChainLaw; decide +kernel
  blackout := by unfold BlackoutLaw; decide +kernel
  inputs := by unfold InputLaw; decide +kernel
  counters := by unfold CounterLaw; decide +kernel
  memory := by unfold MemoryLaw; decide +kernel
  store r h := by cases h
  levels := by
    refine ⟨by decide +kernel, fun c f h => by simp [ready_quiet] at h, by decide +kernel, by decide +kernel, ?_, ?_⟩
    · intro m h
      cases h
    · decide +kernel
  atRest h := absurd rfl h

theorem sound_withPending (cs : List Instr) : Sound (ready.withPending cs) :=
  let h := ready_sound
  ⟨h.park, h.freeze, h.sched, h.live, h.tags, h.position, h.player, h.report, h.params, h.patch, h.cues, h.curves,
    h.arms, h.session, h.defined, h.chain, h.blackout, h.inputs, h.counters, h.memory, h.store, h.levels, h.atRest⟩

/-- The part while it erases and sends the one-character reply to a COLD reset. -/
def storingCold : State := { storing .erasing with line := { ready.line with
  reply := .sending [1] 87, pendingReset := some .cold } }

theorem sound_storing (phase : StorePhase) : Sound (storing phase) :=
  let h := ready_sound
  ⟨h.park, h.freeze, h.sched, h.live, h.tags, h.position, h.player, h.report, h.params, h.patch, h.cues, h.curves,
    h.arms, h.session, h.defined, h.chain, h.blackout, h.inputs, h.counters,
    by unfold MemoryLaw; cases phase <;> decide +kernel,
    by
      intro r e
      have : r = ⟨phase, 1, 3, 5500⟩ := (Option.some.inj e).symm
      subst this
      cases phase <;> decide +kernel,
    h.levels, fun e => absurd rfl e⟩

theorem sound_storingCold : Sound storingCold :=
  let h := ready_sound
  ⟨h.park, h.freeze, h.sched, h.live, h.tags, h.position, h.player, h.report, h.params, h.patch, h.cues, h.curves,
    h.arms, h.session, h.defined, h.chain, h.blackout, h.inputs, h.counters, by unfold MemoryLaw; decide +kernel,
    by
      intro r e
      have : r = ⟨.erasing, 1, 3, 5500⟩ := (Option.some.inj e).symm
      subst this
      decide +kernel,
    h.levels, fun e => absurd rfl e⟩

/-! ## Witnesses: states and operands that meet the hypotheses of each statement, clause by clause -/

theorem witness_FrontOfQueueRuns : (ready.withPending [.poll own 0, .go own]).pending = [.poll own 0, .go own] := rfl

theorem witness_CommandsRunAndTimePasses :
    (ready.pending = [] ∧ dueEvents ready = [] ∧ ready.phase = .running)
      ∧ dueEvents { ready with clock := ⟨5000, 0, some 0⟩ } = [.frameEvent]
      ∧ (dueEvents { ready with clock := ⟨5000, 999, some 701⟩ } = [] ∧ (dueEvents { ready with
        clock := ⟨5000, 0, some 0⟩, arm := { ready.arm with inbox := [⟨4, false⟩] } }).length = 2)
      ∧ (dueEvents { State.reset with phase := .loading } = [] ∧ State.reset.phase = .loading)
      ∧ dueEvents { ready with phase := .off } = [] ∧ dueEvents { ready with phase := .held } = [] := by
  decide +kernel

theorem witness_commands_keep_the_queue : ∃ t, exec (.pause own) ready = .next t := ⟨_, exec_commandOf own .pause ready⟩

/-- The last moment of a character in time is 2086 µs at 115,200 bit/s; 2087 is late. -/
theorem witness_CharactersAreAssembled :
    (Listens ready ∧ ready.line.rx = .hunt)
      ∧ (Listens (hearing [0xD2, 1, 2, 3] 2086) ∧ 2086 * rateOf 0 ≤ 2000 * rateOf 0 + 10000000
        ∧ [0xD2, 1, 2, 3].length = 4 ∧ 60 < (61 : Byte).toNat ∧ (60 : Byte).toNat ≤ 60)
      ∧ (Listens (hearing [0xD2, 1, 2, 3, 2] 0) ∧ 5 + 1 < 5 + (2 : Byte).toNat + 2)
      ∧ (Listens (hearing [0xD2] 2087) ∧ 2000 * rateOf 0 + 10000000 < 2087 * rateOf 0)
      ∧ ((hearing [0xD2] 2000).phase = .running ∧ (hearing [0xD2] 2000).line.rxAge = 2000)
      ∧ (hearing [0xD2] 1999).line.rxAge < 2000
      ∧ (Listens (hearing ([0xD2, 0x12, 5, 0x20, 0] ++ [] ++ [0x19]) 0)
        ∧ half 0x19 0x9F = crc16 ([0x12, 5, 0x20, 0] ++ [])
        ∧ half 0x19 0x9E ≠ crc16 ([0x12, 5, 0x20, 0] ++ [])) := by decide +kernel

theorem witness_PayloadsReadBack :
    Message.lengthOk (.configure [⟨1, 5⟩]) = true
      ∧ Message.lengthOk (.configure (List.replicate 10 ⟨1, 5⟩)) = true
      ∧ Message.lengthOk (.arm 7 1 [4, 1, 0, 0, 0] [1, 0, 0, 0, 0, 0, 0, 0, 0, 0, 0]) = true := by decide +kernel

theorem witness_FrameIsItsMessage :
    Listens (hearing [0xD2, 0x12, 5, 0x20, 0, 0x19] 0) ∧ Message.lengthOk .go = true
      ∧ hostFrame ⟨0x12, 5⟩ .go = [0xD2, 0x12, 5, 0x20, 0, 0x19] ++ [0x9F] := by decide +kernel

theorem witness_LineInterfaceDecides :
    ({ ready with phase := .loading } : State).phase ≠ .running
      ∧ (replying (.sending [1] 5) none).line.reply = .sending [1] 5
      ∧ (Listens ready ∧ ¬ NamesNode 2 ready ∧ ¬ NamesGroup 2 ready)
      ∧ ((replying (.waiting [1] 5) none).phase = .running
        ∧ (replying (.waiting [1] 5) (some .cold)).line.pendingReset = some .cold)
      ∧ (let s : State := { ready with line := { ready.line with cache := some ⟨7, 0x20, [0x00]⟩ } }
        Listens s ∧ NamesNode own.addr s ∧ own.seq ≠ 0 ∧ s.line.cache = some ⟨own.seq, kindOf .go, [0x00]⟩)
      ∧ (TakesNew own (kindOf (.configure [])) ready ∧ Message.lengthOk (.configure []) = false)
      ∧ (TakesNew own 0x38 ready ∧ reservedOk (.arm 0 0 [4, 1, 0, 0, 1] [1, 0, 0, 0, 0, 0, 0, 0, 0, 0, 0]) = false)
      := by decide +kernel

/-- The last character of a frame of kind 07H, which names no message, and of a POLL with two bytes of payload. -/
theorem witness_bad_frames :
    (let crc := crc16 ([1, 7, 0x07, 0] ++ [])
      let s := hearing ([0xD2, 1, 7, 0x07, 0] ++ [] ++ [crc.setWidth 8]) 0
      TakesNew own 0x07 s ∧ half (crc.setWidth 8) ((crc >>> 8).setWidth 8) = crc ∧ payloadLengths 0x07 = [])
      ∧ (let crc := crc16 ([1, 7, 0x3C, 2] ++ [0, 0])
        let s := hearing ([0xD2, 1, 7, 0x3C, 2] ++ [0, 0] ++ [crc.setWidth 8]) 2086
        TakesNew own 0x3C s ∧ half (crc.setWidth 8) ((crc >>> 8).setWidth 8) = crc
          ∧ payloadLengths 0x3C ≠ [] ∧ 2 ∉ payloadLengths 0x3C)
      ∧ (60 ∉ payloadLengths 0x03 ∧ 50 ∈ payloadLengths 0x03 ∧ 49 ∈ payloadLengths 0x05) := by decide +kernel

theorem witness_GroupFramesActWithoutReply :
    (Listens ready ∧ NamesGroup everyone.addr ready ∧ TakesGroup everyone (kindOf .pause) ready)
      ∧ NamesGroup 0x40 { ready with working := { show2 with params := { Params.default with groupMask := 1 } } }
      ∧ NamesGroup 0x4F { ready with working := { show2 with params := { Params.default with groupMask := 0x8000 } } }
      ∧ (let s : State := { ready with line := { ready.line with filter := some (9, 0x23) } }
        Listens s ∧ NamesGroup everyone.addr s ∧ everyone.seq ≠ 0
          ∧ s.line.filter = some (everyone.seq, kindOf .pause))
      ∧ (TakesGroup everyone (kindOf (.poll 0)) ready ∧ groupPermits (kindOf (.poll 0)) = false) := by decide +kernel

/-- GO from position 0 chooses cue 1; BACK from there, and GO from position 4, choose none. -/
theorem witness_group_go :
    CueListLaw ready.working ∧ PositionLaw ready ∧ TakesGroup everyone (kindOf .go) ready
      ∧ (∃ q ∈ ready.working.cues, Chosen .go q ready) ∧ (∃ q ∈ ready.working.cues, Chosen (.goTo 4) q ready)
      ∧ (∀ q ∈ ready.working.cues, ¬ Chosen .back q ready)
      ∧ ∃ q ∈ ready.working.cues, Chosen .back q { ready with player := { ready.player with position := 4 } } := by
  refine ⟨ready_cues, ready_sound.position, ?_⟩
  unfold Chosen
  decide +kernel

theorem witness_RepliesAreBuiltAndSent :
    TakesNew own (kindOf .readMemory) ready
      ∧ (replying (.waiting [1] 100) none).phase = .running
      ∧ ((replying (.sending [0xA5, 1] 87) none).line.reply = .sending [0xA5, 1] 87
        ∧ [(0xA5 : Byte), 1][87 * rateOf 0 / 1000000 / 10]? = some 1)
      ∧ (7 * 10000000 ≤ 608 * rateOf 0 ∧ 607 * rateOf 0 < 7 * 10000000) := by decide +kernel

theorem witness_StartsResetEveryBlock :
    ready.mem.store = none ∧ ready.phase ≠ .off ∧ ({ ready with phase := .off } : State).phase = .off
      ∧ ({ ready with phase := .held } : State).phase = .held := by decide +kernel

theorem witness_LoadAtStartSetsTheShow :
    State.reset.phase = .loading ∧ State.reset.report = ⟨[], 1, 0⟩ ∧ newestBank (Vector.replicate 2 none) = none
      ∧ newestBank #v[some 4, some 5] = some (1, 5) ∧ newestBank #v[some 5, none] = some (0, 5) := by decide +kernel

/-- A bank that holds a show passes its check, with the generation of its header. -/
theorem witness_a_valid_bank : checkBank (writeBytes [] 0 (bankBytes 5 show2.image)) = some (5, show2) :=
  checkBank_bankBytes 5 show2.image show2 (by decide) (by decide +kernel) (by decide +kernel) (by decide +kernel)

theorem witness_ResetTakesEffectAfterItsReply :
    TakesNew own 0x0F ready ∧ ready.mem.store = none ∧ (storing .erasing).mem.store ≠ none
      ∧ TakesNew own 0x0F (storing .erasing)
      ∧ ((replying (.sending [1] 87) (some .warm)).phase = .running ∧ [(1 : Byte)].length * 10000000 ≤ 87 * rateOf 0)
      ∧ (replying (.sending [1] 87) (some .cold)).line.pendingReset = some .cold := by decide +kernel

theorem witness_CutOffStoreLeavesItsTargetInvalid :
    (∀ phase, Sound (storing phase) ∧ (storing phase).mem.store = some ⟨phase, 1, 3, 5500⟩)
      ∧ (∃ t, exec .powerLoss (storing .erasing) = .next t)
      ∧ (Sound storingCold ∧ storingCold.mem.store = some ⟨.erasing, 1, 3, 5500⟩ ∧ storingCold.phase = .running
        ∧ storingCold.line.pendingReset = some .cold ∧ storingCold.line.reply = .sending [1] 87
        ∧ [(1 : Byte)].length * 10000000 ≤ 87 * rateOf storingCold.line.lineRate) :=
  ⟨fun phase => ⟨sound_storing phase, rfl⟩, ⟨_, rfl⟩, sound_storingCold, rfl, rfl, rfl, rfl, by decide⟩

theorem witness_NodeReadsAnswer : TakesNew own 0x01 ready ∧ TakesNew own 0x02 ready := by decide +kernel

theorem witness_ConfigureAppliesAllOrNone :
    TakesNew own 0x03 ready
      ∧ (∀ p ∈ ([⟨0x06, 3⟩, ⟨0x06, 0⟩, ⟨0x01, 20⟩] : List RawPair), paramOk p.id.toNat p.value.toNat = true)
      ∧ (∃ p ∈ ([⟨0x0D, 1⟩] : List RawPair), 0x06 ≤ p.id.toNat ∧ p.id.toNat ≤ 0x0D)
      ∧ (∀ p ∈ ([⟨0x0E, 1⟩, ⟨0x05, 1⟩] : List RawPair), p.id.toNat < 0x06 ∨ 0x0D < p.id.toNat)
      ∧ paramOk 0x18 0 = false ∧ paramOk 0 0 = false := by decide +kernel

theorem witness_ReadConfigReturnsParameters :
    TakesNew own 0x04 ready ∧ (14 : Byte).toNat + (10 : Byte).toNat ≤ 0x18
      ∧ 0x18 < (15 : Byte).toNat + (10 : Byte).toNat ∧ 10 < (11 : Byte).toNat ∧ (0 : Byte).toNat < 1 := by
  decide +kernel

theorem witness_PatchReplacesRecords :
    TakesNew own 0x05 ready ∧ TakesNew own 0x06 ready ∧ (40 : Byte).toNat + 1 ≤ 41 ∧ 41 < (41 : Byte).toNat + 1
      ∧ (∀ r ∈ ([⟨24, 2, 4095, 4095⟩] : List RawOutput),
        r.source.toNat ≤ 24 ∧ r.law.toNat ≤ 2 ∧ r.threshold.toNat ≤ 4095 ∧ r.min.toNat ≤ 4095)
      ∧ 24 < (25 : Byte).toNat ∧ (35 : Byte).toNat + (6 : Byte).toNat ≤ 41 := by decide +kernel

theorem witness_EditSessionsOpenAndExpire :
    TakesNew own 0x12 ready ∧ TakesNew own 0x10 ready ∧ ready.editor.session = .idle
      ∧ (ready.working.findCue (4 : Half).toNat = some ⟨4, none, [⟨0, 0, 1000, 0, 0⟩]⟩)
      ∧ (∀ q ∈ ready.working.cues, q.number ≠ (9999 : Half).toNat) ∧ 9999 < (10000 : Half).toNat
      ∧ (TakesNew own 0x12 (editing (.cue 3 none [])) ∧ (editing (.cue 3 none [])).editor.session ≠ .idle)
      ∧ ((2 : Byte).toNat = 2 ∧ (32 : Byte).toNat ≤ 32 ∧ 32 < (33 : Byte).toNat ∧ 15 < (16 : Byte).toNat)
      ∧ (let s : State := { editing (.curve 15 [none, none]) with clock := ⟨15000, 0, some 700⟩ }
        s.phase = .running ∧ s.editor.session ≠ .idle ∧ 10000 ≤ since s.now s.editor.idleFrom)
      ∧ (let s : State := { editing (.cue 3 none []) with clock := ⟨14999, 0, some 700⟩ }
        s.editor.session = .cue 3 none [] ∧ since s.now s.editor.idleFrom < 10000) := by decide +kernel

theorem witness_CueActionsFillTheBuffer :
    (let s := editing (.cue 3 none [⟨0, 5, 0, 0, 0⟩, ⟨23, 6, 0, 0, 0⟩])
      let records : List RawAction := [⟨24, 4095, 600000, 60000, 15⟩, ⟨1, 0xFFFF, 0, 0, 0⟩]
      TakesNew own 0x13 s ∧ s.editor.session = .cue 3 none [⟨0, 5, 0, 0, 0⟩, ⟨23, 6, 0, 0, 0⟩]
        ∧ (([⟨0, 5, 0, 0, 0⟩, ⟨23, 6, 0, 0, 0⟩] : List Action).map (·.channel)).Pairwise (· < ·)
        ∧ (∀ r ∈ records, actionRecordOk r) ∧ (records.map (·.channel)).Nodup)
      ∧ TakesNew own 0x13 ready
      ∧ ¬ actionRecordOk ⟨25, 0, 0, 0, 0⟩ ∧ ¬ actionRecordOk ⟨1, 4096, 0, 0, 0⟩ ∧ ¬ actionRecordOk ⟨1, 0xFFFF, 1, 0, 0⟩
      ∧ ¬ (([⟨1, 0, 0, 0, 0⟩, ⟨1, 5, 0, 0, 0⟩] : List RawAction).map (·.channel)).Nodup := by decide +kernel

theorem witness_CueFollowSetsTheFollow :
    TakesNew own 0x14 (editing (.cue 3 none [])) ∧ TakesNew own 0x14 ready
      ∧ 600000 < (600001 : Word).toNat ∧ (600001 : Word) ≠ 0xFFFFFFFF ∧ (600000 : Word).toNat ≤ 600000 := by decide +kernel

theorem witness_CurvePointsFillPlaces :
    TakesNew own 0x11 (editing (.curve 2 [none, none, none])) ∧ TakesNew own 0x11 ready
      ∧ (2 : Byte).toNat + 1 ≤ 3 ∧ 3 < (3 : Byte).toNat + 1 ∧ (1000 : Half).toNat ≤ 1000 ∧ 1000 < (1001 : Half).toNat := by
  decide +kernel

theorem witness_EditAbortClosesTheSession :
    TakesNew own 0x16 (editing (.curve 2 [none, none])) ∧ (editing (.curve 2 [none, none])).editor.session ≠ .idle
      ∧ TakesNew own 0x16 ready ∧ ready.editor.session = .idle := by decide +kernel

/-- A full list of 64 cues, 10 to 73. -/
def full : Show := { show2 with cues := (List.range 64).map fun k => ⟨k + 10, none, [⟨0, 5, 0, 0, 0⟩]⟩ }

theorem full_cues : CueListLaw full := by
  refine ⟨by decide +kernel, by decide +kernel, by decide +kernel, ?_⟩
  intro q hq
  simp only [full, List.mem_map, List.mem_range] at hq
  obtain ⟨k, hk, rfl⟩ := hq
  refine ⟨by dsimp only; omega, by dsimp only; omega, fun t e => (by cases e), by simp, by simp, ?_⟩
  intro a ha
  rw [List.mem_singleton] at ha
  subst ha
  unfold Action.inRange
  decide

/-- Cue 9 fits into the small list and not into the full one; cue 4 is in the list; curve 2 is undefined. -/
theorem witness_CueCommits :
    (CueListLaw ready.working ∧ CueListLaw full)
      ∧ (let s := editing (.cue 9 none [⟨0, 5, 0, 0, 1⟩])
        TakesNew own 0x15 s ∧ (∀ a ∈ ([⟨0, 5, 0, 0, 1⟩] : List Action), s.working.curve a.curve ≠ none)
          ∧ s.working.actionsUsed - 0 + 1 ≤ 384 ∧ s.working.findCue 9 = none ∧ s.working.cues.length < 64)
      ∧ (let s : State := { editing (.cue 9 none [⟨0, 5, 0, 0, 1⟩]) with working := full }
        TakesNew own 0x15 s ∧ s.working.findCue 9 = none ∧ s.working.cues.length = 64
          ∧ s.working.curve 1 ≠ none)
      ∧ (TakesNew own 0x15 (editing (.cue 4 none [])) ∧ ready.working.findCue 4 ≠ none)
      ∧ (∃ a ∈ ([⟨0, 5, 0, 0, 2⟩] : List Action), ready.working.curve a.curve = none) :=
  ⟨⟨ready_cues, full_cues⟩, by decide +kernel⟩

theorem witness_CurveCommits :
    CurveLaw ready.working ∧ TakesNew own 0x15 (editing (.curve 1 (quick.map some)))
      ∧ (shapeOk quick = true ∧ shapeOk [⟨0, 0⟩, ⟨999, 1000⟩] = false)
      ∧ (ready.fade.usesCurve 1 || ready.player.usesCurve 1) = false ∧ playing.fade.usesCurve 1 = true
      ∧ ready.working.pointsUsed - 3 + quick.length ≤ 240
      ∧ (TakesNew own 0x15 (editing (.curve 1 [some ⟨0, 0⟩, none])) ∧ none ∈ [some (⟨0, 0⟩ : Point), none])
      ∧ TakesNew own 0x15 ready :=
  ⟨ready_curves, by decide +kernel⟩

theorem witness_DeletesFreeThePools :
    CueListLaw ready.working ∧ CurveLaw ready.working ∧ TakesNew own 0x17 ready ∧ TakesNew own 0x18 ready
      ∧ (⟨4, none, [⟨0, 0, 1000, 0, 0⟩]⟩ : Cue) ∈ ready.working.cues
      ∧ (∀ q ∈ ready.working.cues, q.number ≠ (9999 : Half).toNat) ∧ 9999 < (10000 : Half).toNat
      ∧ (Table.at ready.working.curves 14 = none ∧ (15 : Byte).toNat = (14 : Fin 15).val + 1)
      ∧ (∃ q ∈ ready.working.cues, ∃ a ∈ q.actions, a.curve = (1 : Byte).toNat)
      ∧ (let s : State := { ready with working := { show2 with cues := [] } }
        TakesNew own 0x18 s ∧ Table.at s.working.curves 0 = some quick
          ∧ (∀ c : Chan, (s.chan c).fade = none) ∧ s.player.sched = []) :=
  ⟨ready_cues, ready_curves, by decide +kernel⟩

theorem witness_ShowReadsAnswer :
    TakesNew own 0x19 ready ∧ TakesNew own 0x1A ready ∧ TakesNew own 0x1B ready
      ∧ ready.working.findCue (4 : Half).toNat = some ⟨4, none, [⟨0, 0, 1000, 0, 0⟩]⟩
      ∧ ready.working.findCue (9999 : Half).toNat = none ∧ 9999 < (10000 : Half).toNat
      ∧ (ready.working.curve (1 : Byte).toNat = some quick ∧ ready.working.curve (15 : Byte).toNat = none
        ∧ 15 < (16 : Byte).toNat)
      ∧ ((2 : Byte).toNat < quick.length ∧ quick.length ≤ (3 : Byte).toNat) := by decide +kernel

theorem witness_GoStartsTheChosenCue :
    CueListLaw ready.working ∧ PositionLaw ready ∧ LiveLaw ready ∧ TakesNew own 0x20 ready ∧ TakesNew own 0x21 ready
      ∧ (∃ q ∈ ready.working.cues, Chosen .go q ready) ∧ (∃ q ∈ ready.working.cues, Chosen (.goTo 4) q ready)
      ∧ (let s : State := { run (.goTo own 4) ready with line := ready.line }
        PositionLaw s ∧ TakesNew own 0x22 s ∧ (∃ q ∈ s.working.cues, Chosen .back q s)
          ∧ TakesNew own 0x20 s ∧ ∀ q ∈ s.working.cues, q.number ≤ s.player.position)
      ∧ (TakesNew own 0x22 ready ∧ ∀ q ∈ ({ ready with working := { show2 with cues := [] } } : State).working.cues,
          ready.player.position ≤ q.number)
      ∧ (9999 < (10000 : Half).toNat ∧ ∀ q ∈ ready.working.cues, q.number ≠ (9999 : Half).toNat) := by
  refine ⟨ready_cues, ready_sound.position, ready_sound.live, ?_⟩
  unfold PositionLaw Chosen
  decide +kernel

/-- The part after a GO_TO of cue 4. -/
def atFour : State := { run (.goTo own 4) ready with line := ready.line }

/-- The answer of a message that is new. -/
theorem answered (m : Message) (s : State) (takes : TakesNew own (kindOf m) s) (good : lineCheck m = .ok m) :
    Answers (commandOf own m) own (kindOf m) s (runMessage .node m s.taken).1 (runMessage .node m s.taken).2.status
      (runMessage .node m s.taken).2.data := by
  unfold Answers
  exact (exec_commandOf own m s).trans (congrArg Host.Outcome.next (frameArrives_new own m s takes good))

theorem witness_GoActsOnItsChannels :
    (CueListLaw ready.working ∧ SchedLaw ready)
      ∧ (TakesNew own 0x20 ready ∧ (∃ q ∈ ready.working.cues, Chosen .go q ready)
        ∧ ∃ t st data, Answers (.go own) own 0x20 ready t st data)
      ∧ (TakesNew own 0x21 ready ∧ (∃ q ∈ ready.working.cues, Chosen (.goTo 4) q ready)
        ∧ ∃ t st data, Answers (.goTo own 4) own 0x21 ready t st data)
      ∧ (TakesNew own 0x22 atFour ∧ CueListLaw atFour.working ∧ (∃ q ∈ atFour.working.cues, Chosen .back q atFour)
        ∧ ∃ t st data, Answers (.back own) own 0x22 atFour t st data) := by
  have go : TakesNew own 0x20 ready := by decide +kernel
  have goTo : TakesNew own 0x21 ready := by decide +kernel
  have back : TakesNew own 0x22 atFour := by decide +kernel
  have same : atFour.working = ready.working := by decide +kernel
  refine ⟨⟨ready_cues, ready_sound.sched⟩, ⟨go, ?_, _, _, _, answered .go ready go rfl⟩,
    ⟨goTo, ?_, _, _, _, answered (.goTo 4) ready goTo rfl⟩,
    ⟨back, same ▸ ready_cues, ?_, _, _, _, answered .back atFour back rfl⟩⟩ <;>
  · unfold Chosen
    decide +kernel

theorem witness_PauseAndResume :
    (TakesNew own 0x23 playing ∧ playing.player.state = .running)
      ∧ (let s : State := { run (.goTo own 4) { ready with working := { show2 with
          cues := [⟨4, none, [⟨0, 9, 0, 0, 0⟩]⟩] } } with line := ready.line }
        TakesNew own 0x23 s ∧ s.player.state = .waiting)
      ∧ (TakesNew own 0x23 paused ∧ paused.player.state = .paused ∧ TakesNew own 0x24 paused)
      ∧ (TakesNew own 0x23 ready ∧ ready.player.state = .stopped ∧ TakesNew own 0x24 ready) := by decide +kernel

theorem witness_ReleaseEndsPlayback :
    TakesNew own 0x25 playing ∧ (60000 : Half).toNat ≤ 60000 ∧ 60000 < (60001 : Half).toNat
      ∧ ((playing.chan 0).park = none ∧ (playing.chan 0).fade ≠ none) := by decide +kernel

/-- The scheduled start of cue 1 on channel 3 is due 300 ms after the GO at 5000. -/
theorem witness_ScheduledStartExpires :
    playing.phase = .running ∧ playing.player.sched = [⟨2, 7, 10, 0, 1, ⟨300, 5000⟩⟩]
      ∧ playing.player.state ≠ .paused ∧ since 5300 5000 = 300 ∧ since 5299 5000 < 300 ∧ (playing.chan 2).park = none
      ∧ (paused.player.sched = [⟨2, 7, 10, 0, 1, ⟨300, 5000⟩⟩] ∧ paused.player.state = .paused)
      ∧ (playing.player.live.find? (·.cue == 1) = some ⟨1, 2, false⟩ ∧ (playing.chan 2).fade = none)
      ∧ (let s : State := { ready with player := ⟨.running, 1, none, none, [⟨2, 7, 0, 0, 1, ⟨300, 5000⟩⟩], [⟨1, 1, true⟩]⟩ }
        s.player.live.find? (·.cue == 1) = some ⟨1, 1, true⟩ ∧ (s.chan 2).fade = none)
      ∧ (let s : State := { playing with player := { playing.player with sched := [⟨0, 7, 0, 0, 1, ⟨300, 5000⟩⟩] } }
        (s.chan 0).park = none ∧ (s.chan 0).fade ≠ none) := by decide +kernel

/-- The follow of cue 1 is due 500 ms after the GO at 5000, and cue 4 is the next. -/
theorem witness_FollowStartsTheNextCue :
    CueListLaw ready.working ∧ PositionLaw playing ∧ playing.phase = .running ∧ playing.player.follow = some ⟨500, 5000⟩
      ∧ playing.player.state ≠ .paused ∧ since 5500 5000 = 500 ∧ since 5499 5000 < 500
      ∧ (∃ q ∈ playing.working.cues, Chosen .go q playing)
      ∧ (let s : State := { playing with working := { show2 with cues := [] } }
        s.player.follow = some ⟨500, 5000⟩ ∧ ∀ q ∈ s.working.cues, q.number ≤ s.player.position)
      ∧ paused.player.state = .paused := by
  refine ⟨ready_cues, ?_⟩
  unfold PositionLaw Chosen
  decide +kernel

theorem witness_PlaybackReadsAnswer :
    TakesNew own 0x26 playing ∧ TakesNew own 0x35 playing ∧ TakesNew own 0x3A playing
      ∧ playing.player.live.length = 1 ∧ playing.player.live.length < (2 : Byte).toNat
      ∧ playing.player.sched.length = 1 ∧ 1 < (2 : Byte).toNat
      ∧ ((21 : Byte).toNat + (4 : Byte).toNat ≤ 25 ∧ 25 < (22 : Byte).toNat + (4 : Byte).toNat) := by decide +kernel

theorem witness_FadeActsOnItsChannels :
    TagLaw ready ∧ TakesNew own 0x30 ready ∧ (4095 : Half).toNat ≤ 4095 ∧ (600000 : Word).toNat ≤ 600000 ∧ (1 : Byte).toNat ≤ 15
      ∧ (ready.working.curve (1 : Byte).toNat).isSome
      ∧ (∃ c : Chan, ((0x800000 : ChanMask).getLsbD c.val && decide ((ready.chan c).park = none)) = true)
      ∧ (4095 < (4096 : Half).toNat ∧ 600000 < (600001 : Word).toNat ∧ 15 < (16 : Byte).toNat)
      ∧ ready.working.curve (15 : Byte).toNat = none
      ∧ (TakesNew own 0x30 parked
        ∧ ∀ c : Chan, (3 : ChanMask).getLsbD c.val = true → (parked.chan c).park ≠ none) :=
  ⟨ready_sound.tags, by decide +kernel⟩

theorem witness_ParkAndUnpark :
    TakesNew own 0x31 playing ∧ TakesNew own 0x32 parked ∧ (0x800000 : ChanMask) ≠ 0 ∧ (4095 : Half).toNat ≤ 4095
      ∧ 4095 < (4096 : Half).toNat := by decide +kernel

theorem witness_MasterAndBlackout :
    TakesNew own 0x33 ready ∧ TakesNew own 0x34 ready ∧ (1000 : Half).toNat ≤ 1000 ∧ (60000 : Half).toNat ≤ 60000
      ∧ 1000 < (1001 : Half).toNat ∧ 60000 < (60001 : Half).toNat ∧ 1 < (2 : Byte).toNat
      ∧ (1 : Byte) = (if true then 1 else 0) := by decide +kernel

theorem witness_ArmAndDisarmWriteASlot :
    TakesNew own 0x38 ready ∧ TakesNew own 0x39 ready ∧ TakesNew own 0x3A ready
      ∧ (Condition.levelCross 23 4095 .down).inRange ∧ (ArmAction.fade 0x800000 4095 600000 15).inRange
      ∧ 7 < (8 : Byte).toNat := by
  unfold Condition.inRange ArmAction.inRange
  decide +kernel

/-- No mode is written as 2. -/
theorem witness_arm_refuses_a_mode :
    ¬ ∃ d : ArmDef, d.condition.inRange ∧ d.action.inRange ∧ (2 : Byte) = BitVec.ofNat 8 d.mode.code
      ∧ [4, 1, 0, 0, 0] = d.condition.bytes ∧ [1, 0, 0, 0, 0, 0, 0, 0, 0, 0, 0] = d.action.bytes := by
  rintro ⟨d, -, -, mode, -⟩
  cases e : d.mode <;> rw [e] at mode <;> exact absurd mode (by decide)

/-- Slots 2 and 7 watch for cue 4, slot 0 for cue 1; one CUE_DONE waits behind the other. -/
theorem witness_CueDoneFiresItsSlots :
    let d : ArmDef := ⟨.once, .cueComplete 4, .back⟩
    let two : Table (Option ArmDef) 8 := Table.put (Table.put show2.arms 7 (some d)) 2 (some d)
    let s : State := { ready with
      arm := { ready.arm with inbox := [⟨4, true⟩, ⟨1, false⟩] }
      working := { show2 with arms := Table.put two 0 (some ⟨.once, .cueComplete 1, .go⟩) } }
    let fires : Fin 8 → Bool := fun k => !Table.at s.arm.fired k && match Table.at s.working.arms k with
      | some d => d.condition == .cueComplete 4
      | none => false
    (s.phase = .running ∧ s.arm.inbox = ⟨4, true⟩ :: [⟨1, false⟩] ∧ firing fires s.working = [(2, d), (7, d)]
        ∧ Table.at s.working.arms 0 = some ⟨.once, .cueComplete 1, .go⟩)
      ∧ (∀ x ∈ [((2 : Fin 8), d), (7, d)], x.2.action.inRange) ∧ CueListLaw s.working ∧ PositionLaw s :=
  ⟨by decide +kernel, by simp [ArmAction.inRange], ready_cues, ready_sound.position⟩

/-- One slot of each kind beside EMPTY ones at a frame event, with a CUE_DONE of each kind waiting. -/
theorem witness_SnapshotFiresItsSlots :
    let s : State := { ready with
      clock := ⟨5000, 0, some 0⟩
      arm := ⟨Table.put ready.arm.memory 2 (some 0), Vector.replicate 8 true, [⟨4, true⟩, ⟨1, false⟩]⟩
      working := { show2 with arms := #v[some ⟨.once, .cueComplete 4, .go⟩, some ⟨.repeating, .inputEdge 0 .both, .go⟩,
        some ⟨.once, .levelCross 0 1 .up, .pause⟩, some ⟨.repeating, .fadeProgress 0 1000, .back⟩, none, none, none, none] } }
    s.phase = .running ∧ s.clock.frameTimer = some 0 ∧ Table.at s.arm.memory 2 = some 0
      ∧ Table.at s.arm.memory 3 = none ∧ Table.at s.working.arms 7 = none
      ∧ (s.arm.inbox.filter fun a => !a.ahead) = [⟨1, false⟩] := by decide +kernel

/-- Two slots that fire on the snapshot. -/
theorem witness_slots_fire_on_the_snapshot :
    let d : ArmDef := ⟨.once, .levelCross 0 1 .up, .pause⟩
    let s : State := { ready with
      clock := ⟨5000, 0, some 0⟩
      fade := { ready.fade with chans := Table.put ready.fade.chans 0 ⟨100, none, none, .nobody⟩ }
      arm := { ready.arm with memory := Table.put (Table.put ready.arm.memory 2 (some 0)) 5 (some 0) }
      working := { show2 with arms := Table.put (Table.put show2.arms 2 (some d)) 5 (some d) } }
    (s.phase = .running ∧ s.clock.frameTimer = some 0
        ∧ firing (Table.at (run .frameEvent s).arm.fired) s.working = [(2, d), (5, d)])
      ∧ (∀ x ∈ [((2 : Fin 8), d), (5, d)], x.2.action.inRange) ∧ CueListLaw s.working ∧ PositionLaw s :=
  ⟨by decide +kernel, by simp [ArmAction.inRange], ready_cues, ready_sound.position⟩

/-- Section 5.7.1 with a frame event at the same instant: the CUE_DONE that slot 0 caused is taken while its flag stands,
and does not fire it again; one that a host's GO caused waits until after the snapshot, which has cleared the flag. -/
theorem test_a_firing_cannot_fire_its_slot_again :
    let s (ahead : Bool) : State := { ready with
      clock := ⟨5000, 0, some 0⟩
      arm := ⟨ready.arm.memory, Table.put ready.arm.fired 0 true, [⟨4, ahead⟩]⟩
      working := { show2 with arms := Table.put show2.arms 0 (some ⟨.repeating, .cueComplete 4, .goTo 4⟩) } }
    (offered (run .frameEvent (s true)) = [] ∧ (run .frameEvent (s true)).arm.inbox = [])
      ∧ (run .frameEvent (s false)).arm.inbox = [⟨4, false⟩]
      ∧ Table.at (run .frameEvent (s false)).arm.fired 0 = false := by decide +kernel

theorem witness_ReportsAreQueuedAndPolled :
    TakesNew own 0x3C ready ∧ ready.taken.report.nextSeq ≤ 255
      ∧ (2 ≤ (Report.cueDone 1 .cut).kindCode ∧ (Report.cueDone 1 .cut).kindCode ≤ 10
        ∧ (0 : BitVec 9).getLsbD ((Report.cueDone 1 .cut).kindCode - 2) = false)
      ∧ (Report.inputChange 1 1 0).kindCode = 7
      ∧ Record.mergeable ⟨3, 0, .inputChange 1 1 0, false⟩ = true
      ∧ (Reason.cold, (2 : Byte)) ∈ [(Reason.power, (0 : Byte)), (.pin, 1), (.cold, 2), (.warm, 3)]
      ∧ (List.replicate 32 (⟨3, 0, .cueDone 1 .cut, false⟩ : Record)).length = 32 := by decide +kernel

theorem witness_StoreShowIsAccepted :
    (TakesNew own 0x3D ready ∧ ready.mem.store = none ∧ newestBank ready.mem.recs = none)
      ∧ (TakesNew own 0x3D (storing .erasing) ∧ (storing .erasing).mem.store ≠ none)
      ∧ newestBank #v[none, some 4294967295] = some (1, 4294967295)
      ∧ newestBank #v[none, some 4294967294] = some (1, 4294967294) ∧ TakesNew own 0x3F ready := by decide +kernel

theorem witness_LoadShowReplacesTheShow :
    (TakesNew own 0x3E ready ∧ ready.mem.store = none ∧ ready.player.state = .stopped ∧ ready.player.sched = []
        ∧ ready.editor.session = .idle ∧ ∀ c : Chan, (ready.chan c).fade = none)
      ∧ (TakesNew own 0x3E playing ∧ playing.player.state ≠ .stopped)
      ∧ TakesNew own 0x3E (storing .verifying)
      ∧ (newestBank #v[some 4, some 5] = some (1, 5) ∧ Table.at #v[some 4, some 5] (otherBank 1) = some 4)
      ∧ checkBank [] = none := by
  decide +kernel

/-- A staging area with an empty image, read back as it stands. -/
theorem witness_StorePhasesEnd :
    (let area := writeBytes [] 0 (bankHeader 3 0)
      let s : State := { storing .verifying with
        mem := { (storing .verifying).mem with staging := area, banks := Table.put ready.mem.banks 1 area } }
      let staged := readBytes s.mem.staging 4 (10 + littleEndian (readBytes s.mem.staging 8 2))
      s.phase = .running ∧ s.mem.store = some ⟨.verifying, 1, 3, 5500⟩
        ∧ ((∀ b : Bank, Memory.wf (Table.at s.mem.banks b)) ∧ Memory.wf s.mem.staging)
        ∧ readBytes (Table.at s.mem.banks 1) 4 staged.length = staged
        ∧ readBytes [] 4 staged.length ≠ staged)
      ∧ (storing .erasing).mem.store = some ⟨.erasing, 1, 3, 5500⟩
      ∧ (storing .programming).mem.store = some ⟨.programming, 1, 3, 5500⟩
      ∧ ({ storing .erasing with clock := ⟨5500, 0, none⟩ } : State).now = 5500 := by decide +kernel

theorem witness_a_store_that_fails (phase : StorePhase) :
    MemoryLaw (storing phase).mem ∧ StoreLaw (storing phase).mem
      ∧ (storing phase).mem.store = some ⟨phase, 1, 3, 5500⟩ :=
  ⟨(sound_storing phase).memory, (sound_storing phase).store, rfl⟩

/-- R197, R199: VERIFYING stopped at its limit or cut off has written nothing. -/
theorem test_a_stopped_phase_keeps_what_it_does_not_write :
    let s (phase : StorePhase) : State := { storing phase with
      clock := ⟨5500, 0, none⟩
      mem := { (storing phase).mem with banks := Table.put ready.mem.banks 1 [(4, 3), (9, 0)] } }
    Table.at (run .storePhaseLimit (s .verifying)).mem.banks 1 = [(4, 3), (9, 0)]
      ∧ Table.at (run .powerLoss (s .verifying)).mem.banks 1 = [(4, 3), (9, 0)]
      ∧ (run .storePhaseLimit (s .verifying)).mem.lastResult = some ⟨false, 1, 3⟩ := by decide +kernel

/-- R199: PROGRAMMING stopped leaves the magic of a blank bank blank. -/
theorem test_programming_stopped_leaves_the_magic (k : Nat) (staging : Memory) :
    readBytes (partlyProgrammed k staging []) 0 4 = [0xFF, 0xFF, 0xFF, 0xFF] := by
  simp [readBytes, List.range_succ, readByte_partlyProgrammed_magic, readByte, blankByte]

theorem witness_StoredShowReadsBack :
    ParamsLaw ready.working.params ∧ PatchLaw ready.working ∧ CurveLaw ready.working ∧ CueListLaw ready.working
      ∧ ArmLaw ready.working ∧ ∀ q ∈ ready.working.cues, ∀ a ∈ q.actions, (ready.working.curve a.curve).isSome :=
  ⟨ready_sound.params, ready_sound.patch, ready_curves, ready_cues, ready_sound.arms, ready_sound.defined.2.2⟩

/-- For FrameEventAdvancesTheFades and FrameEventComposesTheOutputs. -/
theorem witness_FrameEvents :
    let s : State := { playing with clock := ⟨5000, 0, some 0⟩ }
    s.phase = .running ∧ s.clock.frameTimer = some 0 ∧ (∀ k : Fin 8, Table.at s.working.arms k = none)
      ∧ (s.chan 0).fade = some ⟨0, 4000, 1, 2000, 0, 5000, .cue 1, false⟩ ∧ s.working.curve 1 = some quick := by
  decide +kernel

/-- The accounting laws hold of the part at rest, whose frame event reports nothing. -/
theorem witness_frame_event_reports :
    let s : State := { ready with clock := ⟨5000, 0, some 0⟩ }
    LiveLaw s ∧ TagLaw s ∧ s.clock.frameTimer = some 0 := ⟨ready_sound.live, ready_sound.tags, rfl⟩

/-- With one slot or 32 configured, an IDLE shifter, one that shifts beside a FREE buffer, and one beside a READY one. -/
theorem witness_FrameEventFeedsTheChain :
    let shifting : Buffer := ⟨.shifting, 32, 62500, List.replicate 32 0⟩
    let s (bufs : Table Buffer 2) (slots : Nat) : State := { ready with
      clock := ⟨5000, 0, some 0⟩
      working := { show2 with params := { Params.default with chainSlots := slots } }
      chain := { ready.chain with bufs := bufs } }
    ((s ready.chain.bufs 1).phase = .running ∧ (s ready.chain.bufs 1).clock.frameTimer = some 0)
      ∧ ChainLaw (s ready.chain.bufs 32).chain ∧ ChainLaw (s #v[shifting, Buffer.empty] 32).chain
      ∧ ChainLaw (s #v[shifting, { shifting with role := .ready }] 32).chain
      ∧ (∀ b : Fin 2, (Table.at (s ready.chain.bufs 0).chain.bufs b).role = .free)
      ∧ (s ready.chain.bufs 0).working.params.chainSlots = 0 := by
  unfold ChainLaw
  decide +kernel

/-- Section 1.5.1: x 250 begins the second segment of the user curve. -/
theorem witness_FadeStaysBetweenItsEnds :
    shapeOk quick = true ∧ 1 ≤ 2000 ∧ quick[1]? = some ⟨250, 600⟩ ∧ quick[1 + 1]? = some ⟨1000, 1000⟩
      ∧ ready.working.curve 0 = some [⟨0, 0⟩, ⟨1000, 1000⟩] := by decide

/-- Section 7.5: a shift of 32 slots at 62,500 Hz lasts 8192 µs; its last bit begins at 8176 µs. -/
theorem witness_PeriodsAndShiftsEnd :
    let shifting : Buffer := ⟨.shifting, 32, 62500, List.replicate 32 0⟩
    ChainLaw { ready.chain with bufs := #v[shifting, Buffer.empty], age := 8192 }
      ∧ 16 * 32 * 1000000 ≤ 8192 * 62500 ∧ 8191 * 62500 < 16 * 32 * 1000000
      ∧ (shifting.values.length = shifting.slots ∧ 2 * (8191 * 62500) / 1000000 / 2 + 1 = 16 * 32
        ∧ shifting.values[shifting.slots - 1 - 511 / 16]? = some 0)
      ∧ (let s : State := { ready with pwm := { ready.pwm with timer := some ⟨1000, 0⟩ } }
        s.phase = .running ∧ s.pwm.timer = some ⟨1000, 0⟩ ∧ Table.at s.pwm.applied 0 = 0)
      ∧ ∀ b : Fin 2, (Table.at ready.chain.bufs b).role ≠ .shifting := by
  unfold ChainLaw
  decide +kernel

/-- R137: a duty of 4095 is high at the last instant of the period too, and 4094 is not. -/
theorem test_full_duty_is_high_to_the_end :
    let s (duty : Nat) : State := { ready with pwm := ⟨Vector.replicate 8 duty, ready.pwm.waiting, some ⟨1000, 0⟩⟩ }
    (s 4095).localPin 3 = true ∧ (s 4094).localPin 3 = false := by decide +kernel

/-- R119: a pulse between two samples moves the line alone; at the sample the change is seen, once in its millisecond. -/
theorem test_a_pulse_between_samples_is_not_seen :
    (run (.inputLineChange 0 .high) { ready with clock := ⟨5000, 300, some 400⟩ }).inputs = ready.inputs
      ∧ (let s := run (.inputLineChange 0 .high) ready
        Table.at s.inputs.wait 0 = some ⟨5000, 10⟩ ∧ (run (.inputLineChange 0 .low) s).inputs = s.inputs) := by
  decide +kernel

/-- R166: a frame that stopped short before READ_STATUS is in its frame_errors. -/
theorem test_a_partial_frame_is_counted :
    ((replied (run (.readStatus own) (hearing [0xD2] 0))).drop 8).take 2 = [1, 0] := by decide +kernel

/-- A wait of each length, on an UNUSED input, on a TRIGGER input with a slot, and on one that the row samples. -/
theorem witness_InputsAreDebounced :
    let s : State := { ready with inputs := { ready.inputs with wait := Table.put ready.inputs.wait 3 (some ⟨4980, 20⟩) } }
    let d : ArmDef := ⟨.repeating, .inputEdge 3 .rise, .pause⟩
    let trigger : State := { s with working := { show2 with
      params := { Params.default with role := Table.put Params.default.role 3 .trigger }
      arms := Table.put show2.arms 6 (some d) } }
    ((s.clock.micro = 0 ∧ Table.at s.inputs.sampled 0 = false ∧ Level.high ≠ Table.at s.inputs.sample 0
        ∧ Level.high ≠ Table.at s.inputs.level 0 ∧ Table.at s.inputs.wait 0 = none)
      ∧ (s.phase = .running ∧ Table.at s.inputs.wait 3 = some ⟨4980, 20⟩ ∧ 20 ≤ since s.now 4980
        ∧ since s.now 4981 < 20 ∧ Table.at s.working.params.role 3 = .unused)
      ∧ State.reset.phase ≠ .running
      ∧ (Table.at trigger.working.params.role 3 = .trigger ∧ Table.at trigger.arm.fired 6 = false
        ∧ Table.at trigger.working.arms 6 = some d ∧ activeAt .activeHigh .high = true ∧ d.action.inRange))
      ∧ CueListLaw trigger.working ∧ PositionLaw trigger :=
  ⟨by unfold ArmAction.inRange; decide +kernel, ready_cues, ready_sound.position⟩

theorem witness_GoInputStartsTheNextCue :
    let s : State := { ready with
      inputs := { ready.inputs with wait := Table.put ready.inputs.wait 3 (some ⟨4980, 20⟩) }
      working := { show2 with params := { Params.default with role := Table.put Params.default.role 3 .go } } }
    (s.phase = .running ∧ Table.at s.inputs.wait 3 = some ⟨4980, 20⟩ ∧ 20 ≤ since s.now 4980
        ∧ (∀ k : Fin 8, Table.at s.working.arms k = none) ∧ Table.at s.working.params.role 3 = .go
        ∧ (run (.debounceExpiry 3 true) s).active 3 = true
        ∧ ((run (.debounceExpiry 3 false) { s with inputs := { s.inputs with level := Vector.replicate 4 .high } }).active 3)
          = false)
      ∧ CueListLaw s.working ∧ PositionLaw s := ⟨by decide +kernel, ready_cues, ready_sound.position⟩

theorem witness_SilenceActsAndEnds :
    (let s : State := { ready with
        line := { ready.line with silenceFrom := 0 }
        working := { show2 with params := { Params.default with silenceTime := 5, silenceAction := .safe, safeCue := 4 } } };
      (s.phase = .running ∧ s.line.silence = .listening ∧ 5 * 1000 ≤ since s.now s.line.silenceFrom
        ∧ ∃ q ∈ s.working.cues, q.number = s.working.params.safeCue) ∧ CueListLaw s.working ∧ PositionLaw s)
      ∧ (since 4999 0 < 5 * 1000 ∧ Params.default.silenceTime = 0)
      ∧ ({ ready.line with silence := .silent 3000 } : LineUnit).silence = .silent 3000 :=
  ⟨⟨by decide +kernel, ready_cues, ready_sound.position⟩, by decide⟩

/-- A sound state with a step, for each of the laws that every step keeps. -/
theorem witness_StepKeeps :
    Sound (ready.withPending [.pause own]) ∧ ∃ t, step (ready.withPending [.pause own]) = .next t :=
  ⟨sound_withPending _, _, exec_commandOf own .pause _⟩

end Sys2Proof.Tests
end

