-- ==== Sys2Proof/Proofs/Editor.lean ====
section
/-! SUPPORT. The messages of the cue store and editor that set the follow, abort the session, and read the show: what each
operation answers, case by case (R37, R40, R48 to R50), and the statements settled from these cases. -/

namespace Sys2Proof.Machine

/-! ## Messages refused by their owner -/

/-- A message that its owning block refuses is answered with the status alone (R171). -/
theorem refuses_new (h : Hdr) (m : Message) (s : State) (st : Status) (new : TakesNew h (kindOf m) s)
    (ok : lineCheck m = .ok m) (run : runMessage .node m s.taken = refuse st s.taken) :
    Refuses (commandOf h m) h (kindOf m) s st :=
  answers_new h m s s.taken st [] new ok run

/-! ## Fields, pages and the cue list -/

theorem byte1_toNat (b : Byte) : byte1 b.toNat = [b] := by simp [byte1]

@[simp] theorem length_page {α : Type} (size first : Nat) (items : List α) :
    (page size first items).length = min size (items.length - first) := by simp [page]

theorem followOf_marker : followOf 0xFFFFFFFF = some none := rfl

theorem followOf_of_le {v : Word} (le : v.toNat ≤ 600000) : followOf v = some (some v.toNat) := by
  have notMarker : v ≠ 0xFFFFFFFF := by
    rintro rfl
    simp at le
  rw [followOf, if_neg notMarker, if_pos le]

theorem followOf_of_gt {v : Word} (gt : 600000 < v.toNat) (notMarker : v ≠ 0xFFFFFFFF) : followOf v = none := by
  rw [followOf, if_neg notMarker, if_neg (by omega)]

/-- The built-in curve 0 (R10). -/
theorem curve_zero (w : Show) : w.curve 0 = some [⟨0, 0⟩, ⟨1000, 1000⟩] := rfl

theorem CueListLaw.ascending {w : Show} (law : CueListLaw w) : (w.cues.map (·.number)).Pairwise (· < ·) := by
  obtain ⟨_, _, ascending, _⟩ := law
  exact ascending

/-! ## The session -/

/-- The idle timer restarts at the instant at which the message was taken (R41). -/
theorem editing_taken (session : Session) (s : State) :
    editing session s.taken = { s.taken with editor := ⟨session, s.now⟩ } := by
  rw [editing, taken_now]
  rfl

theorem closeSession_taken (s : State) :
    closeSession s.taken = { s.taken with editor := { s.editor with session := .idle } } := by
  rw [closeSession, taken_editor]
  rfl

section CueFollow

variable {follow : Word} {s : State} {n : Nat} {f : Option Nat} {actions : List Action}

theorem cueFollowOp_no_cue (noCue : ∀ n f actions, s.editor.session ≠ .cue n f actions) :
    cueFollowOp follow s = refuse .wrongState s := by
  unfold cueFollowOp
  cases e : s.editor.session with
  | idle => rfl
  | cue n f actions => exact absurd e (noCue n f actions)
  | curve id places => rfl

theorem cueFollowOp_bad (session : s.editor.session = .cue n f actions) (bad : followOf follow = none) :
    cueFollowOp follow s = refuse .badValue s := by
  rw [cueFollowOp, session, bad]

theorem cueFollowOp_good {new : Option Nat} (session : s.editor.session = .cue n f actions)
    (good : followOf follow = some new) :
    cueFollowOp follow s = (editing (.cue n new actions) s, ⟨.done, []⟩) := by
  rw [cueFollowOp, session, good]

end CueFollow

theorem editAbortOp_idle {s : State} (idle : s.editor.session = .idle) : editAbortOp s = refuse .wrongState s := by
  rw [editAbortOp, if_pos idle]

theorem editAbortOp_session {s : State} (session : s.editor.session ≠ .idle) :
    editAbortOp s = (closeSession s, ⟨.done, []⟩) := by
  rw [editAbortOp, if_neg session]

/-- CUE_FOLLOW with a value that it takes is answered DONE with the follow in the buffer (R37). -/
theorem answers_cueFollow {h : Hdr} {follow : Word} {s : State} {n : Nat} {f new : Option Nat} {actions : List Action}
    (takes : TakesNew h 0x14 s) (session : s.editor.session = .cue n f actions) (good : followOf follow = some new) :
    Answers (.cueFollow h follow) h 0x14 s { s.taken with editor := ⟨.cue n new actions, s.now⟩ } .done [] := by
  refine answers_new h (.cueFollow follow) s _ _ _ takes rfl ?_
  rw [← editing_taken]
  exact cueFollowOp_good (by rwa [taken_editor]) good

/-- Settles O19: without a cue session, or by how the value reads as a follow. -/
theorem cueFollowSetsTheFollow : Obligations.CueFollowSetsTheFollow := by
  intro h follow s takes
  have refuses (st : Status) (run : cueFollowOp follow s.taken = refuse st s.taken) :
      Refuses (.cueFollow h follow) h 0x14 s st := refuses_new h (.cueFollow follow) s st takes rfl run
  refine ⟨fun noCue => refuses _ (cueFollowOp_no_cue (by rwa [taken_editor])), fun n f actions session => ⟨?_, ?_, ?_⟩⟩
  · intro gt notMarker
    exact refuses _ (cueFollowOp_bad (by rwa [taken_editor]) (followOf_of_gt gt notMarker))
  · intro le
    exact answers_cueFollow takes session (followOf_of_le le)
  · rintro rfl
    exact answers_cueFollow takes session followOf_marker

/-- Settles O21: closing the session touches neither the working show nor the report unit. -/
theorem editAbortClosesTheSession : Obligations.EditAbortClosesTheSession := by
  intro h s takes
  constructor
  · intro session
    refine answers_new h .editAbort s _ _ _ takes rfl ?_
    rw [← closeSession_taken]
    exact editAbortOp_session (by rwa [taken_editor])
  · intro idle
    exact refuses_new h .editAbort s _ takes rfl (editAbortOp_idle (by rwa [taken_editor]))

/-! ## Reading -/

section ReadCue

variable {cue : Half} {first : Byte} {s : State} {q : Cue}

theorem readCueOp_bad_number (bad : cue.toNat < 1 ∨ 9999 < cue.toNat) :
    readCueOp cue first s = refuse .badValue s := by
  rw [readCueOp, if_pos bad]

theorem readCueOp_not_found (lo : 1 ≤ cue.toNat) (hi : cue.toNat ≤ 9999)
    (absent : s.working.findCue cue.toNat = none) : readCueOp cue first s = refuse .notFound s := by
  rw [readCueOp, if_neg (by omega), absent]

theorem readCueOp_past_end (lo : 1 ≤ cue.toNat) (hi : cue.toNat ≤ 9999)
    (found : s.working.findCue cue.toNat = some q) (past : q.actions.length ≤ first.toNat) :
    readCueOp cue first s = refuse .badValue s := by
  rw [readCueOp, if_neg (by omega), found]
  exact if_pos past

theorem readCueOp_found (lo : 1 ≤ cue.toNat) (hi : cue.toNat ≤ 9999)
    (found : s.working.findCue cue.toNat = some q) (inside : first.toNat < q.actions.length) :
    readCueOp cue first s = (s, ⟨.done, byte2 cue.toNat ++ opt4 q.follow ++ byte1 q.actions.length ++ [first]
      ++ byte1 (min 5 (q.actions.length - first.toNat))
      ++ ((q.actions.drop first.toNat).take 5).flatMap Action.bytes⟩) := by
  rw [readCueOp, if_neg (by omega), found, ← length_page, ← byte1_toNat first]
  exact if_neg (by omega)

end ReadCue

section ReadCurve

variable {id first : Byte} {s : State} {points : List Point}

theorem readCurveOp_bad_id (bad : 15 < id.toNat) : readCurveOp id first s = refuse .badValue s := by
  rw [readCurveOp, if_pos bad]

theorem readCurveOp_not_found (hi : id.toNat ≤ 15) (absent : s.working.curve id.toNat = none) :
    readCurveOp id first s = refuse .notFound s := by
  rw [readCurveOp, if_neg (by omega), absent]

theorem readCurveOp_past_end (hi : id.toNat ≤ 15) (found : s.working.curve id.toNat = some points)
    (past : points.length ≤ first.toNat) : readCurveOp id first s = refuse .badValue s := by
  rw [readCurveOp, if_neg (by omega), found]
  exact if_pos past

theorem readCurveOp_found (hi : id.toNat ≤ 15) (found : s.working.curve id.toNat = some points)
    (inside : first.toNat < points.length) :
    readCurveOp id first s = (s, ⟨.done, [id] ++ byte1 points.length ++ [first]
      ++ byte1 (min 12 (points.length - first.toNat))
      ++ ((points.drop first.toNat).take 12).flatMap Point.bytes⟩) := by
  rw [readCurveOp, if_neg (by omega), found, ← length_page, ← byte1_toNat id, ← byte1_toNat first]
  exact if_neg (by omega)

end ReadCurve

/-- The numbers that LIST_CUES returns: up to 24 of those greater than `after`, in list order (R50). -/
def Show.numbersAfter (after : Nat) (w : Show) : List Nat :=
  ((w.cues.map (·.number)).filter fun n => decide (after < n)).take 24

theorem CueListLaw.numbersAfter_ascending {w : Show} (law : CueListLaw w) (after : Nat) :
    (w.numbersAfter after).Pairwise (· < ·) :=
  (law.ascending.filter _).take

theorem listCuesOp_bad {after : Half} {s : State} (bad : 9999 < after.toNat) :
    listCuesOp after s = refuse .badValue s := by
  rw [listCuesOp, if_pos bad]

theorem listCuesOp_good {after : Half} {s : State} (hi : after.toNat ≤ 9999) :
    listCuesOp after s = (s, ⟨.done, byte1 s.working.cues.length ++ byte2 (384 - s.working.actionsUsed)
      ++ byte1 (240 - s.working.pointsUsed) ++ byte2 (maskOf fun k : Fin 16 => (s.working.curve k.val).isSome)
      ++ byte1 s.editor.session.kindCode ++ byte2 s.editor.session.number
      ++ byte1 (s.working.numbersAfter after.toNat).length
      ++ (s.working.numbersAfter after.toNat).flatMap byte2⟩) := by
  rw [listCuesOp, if_neg (by omega)]
  rfl

/-- Settles O25, from the cases of the three reading operations in the state in which the message is taken. -/
theorem showReadsAnswer : Obligations.ShowReadsAnswer := by
  refine ⟨⟨fun s => curve_zero s.working, fun h first s => ⟨fun cue takes => ?readCue, fun id takes => ?readCurve⟩⟩,
    fun h after s takes => ?listCues⟩
  case readCue =>
    have refuses (st : Status) (run : readCueOp cue first s.taken = refuse st s.taken) :
        Refuses (.readCue h cue first) h 0x19 s st := refuses_new h (.readCue cue first) s st takes rfl run
    rw [← taken_working]
    exact ⟨fun bad => refuses _ (readCueOp_bad_number bad),
      fun lo hi absent => refuses _ (readCueOp_not_found lo hi absent),
      fun q lo hi found => ⟨fun past => refuses _ (readCueOp_past_end lo hi found past), fun inside =>
        answers_new h (.readCue cue first) s _ _ _ takes rfl (readCueOp_found lo hi found inside)⟩⟩
  case readCurve =>
    have refuses (st : Status) (run : readCurveOp id first s.taken = refuse st s.taken) :
        Refuses (.readCurve h id first) h 0x1A s st := refuses_new h (.readCurve id first) s st takes rfl run
    rw [← taken_working]
    exact ⟨fun bad => refuses _ (readCurveOp_bad_id bad),
      fun hi absent => refuses _ (readCurveOp_not_found hi absent),
      fun points hi found => ⟨fun past => refuses _ (readCurveOp_past_end hi found past), fun inside =>
        answers_new h (.readCurve id first) s _ _ _ takes rfl (readCurveOp_found hi found inside)⟩⟩
  case listCues =>
    refine ⟨fun bad => refuses_new h (.listCues after) s _ takes rfl (listCuesOp_bad bad), fun hi =>
      ⟨s.working.numbersAfter after.toNat, rfl, fun law => law.numbersAfter_ascending after.toNat, ?_⟩⟩
    rw [← taken_working, ← taken_editor]
    exact answers_new h (.listCues after) s _ _ _ takes rfl (listCuesOp_good hi)

end Sys2Proof.Machine
end

