-- ==== Sys2Proof/Proofs/ReadConfig.lean ====
section
/-! SUPPORT. READ_CONFIG: what its operation answers, case by case (R182), and the statement settled from these cases. -/

namespace Sys2Proof.Machine

section ReadConfig

variable {first count : Byte} {s : State}

theorem readConfigOp_bad
    (bad : first.toNat < 1 ∨ count.toNat < 1 ∨ 10 < count.toNat ∨ 0x18 < first.toNat + count.toNat) :
    readConfigOp first count s = refuse .badValue s := by
  rw [readConfigOp]
  exact if_pos (by omega)

theorem readConfigOp_good (firstLo : 1 ≤ first.toNat) (countLo : 1 ≤ count.toNat) (countHi : count.toNat ≤ 10)
    (last : first.toNat + count.toNat ≤ 0x18) :
    readConfigOp first count s = (s, ⟨.done, [first, count] ++ (List.range count.toNat).flatMap fun k =>
      byte4 (s.working.params.value (first.toNat + k))⟩) := by
  rw [readConfigOp, byte1_toNat, byte1_toNat]
  exact if_neg (by omega)

end ReadConfig

/-- Settles O15, from the two cases of the operation in the state in which the message is taken. -/
theorem readConfigReturnsParameters : Obligations.ReadConfigReturnsParameters := by
  intro h first count s takes
  constructor
  · intro firstLo countLo countHi last
    rw [← taken_working]
    exact answers_new h (.readConfig first count) s _ _ _ takes rfl (readConfigOp_good firstLo countLo countHi last)
  · intro bad
    exact refuses_new h (.readConfig first count) s _ takes rfl (readConfigOp_bad bad)

end Sys2Proof.Machine
end

section
/-! SUPPORT. The arithmetic of progress and level on a curve of right shape (R11, R15 to R17), and the statement settled from
it. -/

namespace Sys2Proof.Machine

/-! ## Truncated shares -/

/-- A truncated share of a rise lies between 0 and the rise. -/
theorem tdiv_share_of_nonneg {r e d : Int} (he : 0 ≤ e) (le : e ≤ d) (hd : 0 < d) (hr : 0 ≤ r) :
    0 ≤ (r * e).tdiv d ∧ (r * e).tdiv d ≤ r := by
  refine ⟨Int.tdiv_nonneg (mul_nonneg hr he) hd.le, ?_⟩
  rw [Int.tdiv_eq_ediv_of_nonneg (mul_nonneg hr he)]
  exact Int.ediv_le_of_le_mul hd (mul_le_mul_of_nonneg_left le hr)

/-- A truncated share of a fall lies between the fall and 0. -/
theorem tdiv_share_of_nonpos {r e d : Int} (he : 0 ≤ e) (le : e ≤ d) (hd : 0 < d) (hr : r ≤ 0) :
    r ≤ (r * e).tdiv d ∧ (r * e).tdiv d ≤ 0 := by
  obtain ⟨low, high⟩ := tdiv_share_of_nonneg (r := -r) he le hd (by omega)
  rw [neg_mul, Int.neg_tdiv] at low high
  omega

/-- A value moved by a truncated share stays between its ends. -/
theorem share_between {a b e d : Int} (he : 0 ≤ e) (le : e ≤ d) (hd : 0 < d) :
    min a b ≤ a + ((b - a) * e).tdiv d ∧ a + ((b - a) * e).tdiv d ≤ max a b := by
  rcases le_total a b with h | h
  · have := tdiv_share_of_nonneg (r := b - a) he le hd (by omega)
    omega
  · have := tdiv_share_of_nonpos (r := b - a) he le hd (by omega)
    omega

theorem onSegment_between {p q : Point} {x : Nat} (lo : p.x ≤ x) (hi : x ≤ q.x) (lt : p.x < q.x) :
    min (p.y : Int) q.y ≤ onSegment p q x ∧ onSegment p q x ≤ max (p.y : Int) q.y :=
  share_between (by omega) (by omega) (by omega)

theorem onSegment_end {p q : Point} (lt : p.x < q.x) : onSegment p q q.x = q.y := by
  have ne : (q.x : Int) - p.x ≠ 0 := by omega
  rw [onSegment, Int.mul_tdiv_cancel _ ne]
  omega

theorem levelAt_between {start target : Nat} {p : Int} (lo : 0 ≤ p) (hi : p ≤ 1000) :
    min start target ≤ levelAt start target p ∧ levelAt start target p ≤ max start target := by
  have := share_between (a := start) (b := target) lo hi (by decide)
  unfold levelAt
  omega

theorem levelAt_end (start target : Nat) : levelAt start target 1000 = target := by
  rw [levelAt, Int.mul_tdiv_cancel _ (by decide)]
  omega

theorem levelAt_le {start target n : Nat} {p : Int} (lo : 0 ≤ p) (hi : p ≤ 1000) (hs : start ≤ n) (ht : target ≤ n) :
    levelAt start target p ≤ n := by
  have := (levelAt_between (start := start) (target := target) lo hi).2
  omega

theorem timeFraction_le (elapsed duration : Nat) : timeFraction elapsed duration ≤ 1000 := by
  unfold timeFraction
  split
  · exact le_refl _
  · exact Nat.div_le_of_le_mul (by nlinarith)

/-! ## Curves of right shape -/

theorem risingX_pairwise {l : List Point} (h : risingX l = true) : l.Pairwise fun p q => p.x < q.x := by
  have chain : l.IsChain fun p q => p.x < q.x := by
    induction l with
    | nil => exact .nil
    | cons p rest ih =>
      cases rest with
      | nil => exact .singleton p
      | cons q rest =>
        simp only [risingX, Bool.and_eq_true, decide_eq_true_eq] at h
        exact .cons_cons h.1 (ih h.2)
  have : IsTrans Point fun p q => p.x < q.x := ⟨fun a b c => Nat.lt_trans⟩
  exact List.isChain_iff_pairwise.mp chain

/-- What the shape rules say of a point list (R11). -/
structure Shaped (points : List Point) : Prop where
  two : 2 ≤ points.length
  rising : points.Pairwise fun p q => p.x < q.x
  head : points.head? = some ⟨0, 0⟩
  last : points.getLast? = some ⟨1000, 1000⟩
  low : ∀ p ∈ points, p.y ≤ 1000

theorem shaped_of_shapeOk {points : List Point} (h : shapeOk points = true) : Shaped points := by
  simp only [shapeOk, Bool.and_eq_true, decide_eq_true_eq, beq_iff_eq, List.all_eq_true] at h
  obtain ⟨⟨⟨⟨⟨two, _⟩, rising⟩, head⟩, last⟩, low⟩ := h
  exact ⟨two, risingX_pairwise rising, head, last, low⟩

/-- On the segment that holds x, the progress is that of the segment (R16). -/
theorem progressOn_segment {points : List Point} (rising : points.Pairwise fun p q => p.x < q.x) {i : Nat} {a b : Point}
    {x : Nat} (ha : points[i]? = some a) (hb : points[i + 1]? = some b) (lo : a.x ≤ x) (hi : x < b.x) :
    progressOn points x = onSegment a b x := by
  induction points generalizing i with
  | nil => simp at ha
  | cons p rest ih =>
    cases rest with
    | nil => simp at hb
    | cons q rest =>
      obtain ⟨first, later⟩ := List.pairwise_cons.mp rising
      cases i with
      | zero =>
        obtain rfl : p = a := by simpa using ha
        obtain rfl : q = b := by simpa using hb
        rw [progressOn, if_pos (.inl hi)]
      | succ j =>
        simp only [List.getElem?_cons_succ] at ha hb
        have past : q.x ≤ x := by
          cases j with
          | zero =>
            obtain rfl : q = a := by simpa using ha
            exact lo
          | succ k =>
            have mem : a ∈ rest := List.mem_of_getElem? (by simpa using ha)
            exact ((List.pairwise_cons.mp later).1 a mem).le.trans lo
        have more : rest ≠ [] := by
          rintro rfl
          simp at hb
        rw [progressOn, if_neg (by simp [more]; omega)]
        exact ih later ha hb

/-- Every x from the first point and below the last lies on a segment. -/
theorem exists_segment {points : List Point} {first last : Point} {x : Nat} (head : points.head? = some first)
    (end_ : points.getLast? = some last) (lo : first.x ≤ x) (hi : x < last.x) :
    ∃ i a b, points[i]? = some a ∧ points[i + 1]? = some b ∧ a.x ≤ x ∧ x < b.x := by
  induction points generalizing first with
  | nil => simp at head
  | cons p rest ih =>
    obtain rfl : p = first := by simpa using head
    cases rest with
    | nil =>
      obtain rfl : p = last := by simpa using end_
      omega
    | cons q rest =>
      by_cases on : x < q.x
      · exact ⟨0, p, q, rfl, rfl, lo, on⟩
      · obtain ⟨i, a, b, ha, hb, h⟩ := ih rfl (by simpa using end_) (by omega)
        exact ⟨i + 1, a, b, by simpa using ha, by simpa using hb, h⟩

/-- The point of a greater place has a greater x. -/
theorem rising_getElem? {points : List Point} (rising : points.Pairwise fun p q => p.x < q.x) {i j : Nat} {a b : Point}
    (ha : points[i]? = some a) (hb : points[j]? = some b) (lt : i < j) : a.x < b.x := by
  obtain ⟨hi, rfl⟩ := List.getElem?_eq_some_iff.mp ha
  obtain ⟨hj, rfl⟩ := List.getElem?_eq_some_iff.mp hb
  exact List.pairwise_iff_getElem.mp rising i j hi hj lt

theorem rising_getElem?_le {points : List Point} (rising : points.Pairwise fun p q => p.x < q.x) {i j : Nat} {a b : Point}
    (ha : points[i]? = some a) (hb : points[j]? = some b) (le : i ≤ j) : a.x ≤ b.x := by
  rcases Nat.eq_or_lt_of_le le with rfl | lt
  · obtain rfl : a = b := by simpa [ha] using hb
    exact le_refl _
  · exact (rising_getElem? rising ha hb lt).le

/-- At the last point's x, the progress is its y (R16). -/
theorem progressOn_last {points : List Point} (two : 2 ≤ points.length) (rising : points.Pairwise fun p q => p.x < q.x)
    {last : Point} (end_ : points.getLast? = some last) : progressOn points last.x = last.y := by
  induction points with
  | nil => simp at end_
  | cons p rest ih =>
    cases rest with
    | nil => simp at two
    | cons q rest =>
      obtain ⟨first, later⟩ := List.pairwise_cons.mp rising
      cases rest with
      | nil =>
        obtain rfl : q = last := by simpa using end_
        rw [progressOn, if_pos (.inr rfl)]
        exact onSegment_end (first q (List.mem_cons_self ..))
      | cons r rest =>
        have lt : q.x < last.x := (List.pairwise_cons.mp later).1 last (by
          have := List.mem_of_getLast? (l := r :: rest) (by simpa using end_)
          exact this)
        rw [progressOn, if_neg (by simp; omega)]
        exact ih (by simp) later (by simpa using end_)

theorem Shaped.progress_end {points : List Point} (h : Shaped points) : progressOn points 1000 = 1000 :=
  progressOn_last h.two h.rising h.last

/-- The progress on a curve of right shape lies in 0 to 1000. -/
theorem Shaped.progress_between {points : List Point} (h : Shaped points) {x : Nat} (hx : x ≤ 1000) :
    0 ≤ progressOn points x ∧ progressOn points x ≤ 1000 := by
  rcases Nat.eq_or_lt_of_le hx with rfl | lt
  · rw [h.progress_end]
    decide
  · obtain ⟨i, a, b, ha, hb, lo, hi⟩ := exists_segment h.head h.last (Nat.zero_le x) lt
    rw [progressOn_segment h.rising ha hb lo hi]
    have := onSegment_between lo hi.le (rising_getElem? h.rising ha hb (Nat.lt_succ_self i))
    have := h.low a (List.mem_of_getElem? ha)
    have := h.low b (List.mem_of_getElem? hb)
    omega

/-- The built-in curve 0 is a straight line (R10). -/
theorem progressOn_linear (x : Nat) : progressOn linearCurve x = x := by
  simp [linearCurve, progressOn, onSegment]

theorem shapeOk_linear : shapeOk linearCurve = true := by decide

/-- Settles O47: the segment that holds x decides the progress, and a truncated share stays between its ends. -/
theorem fadeStaysBetweenItsEnds : Obligations.FadeStaysBetweenItsEnds := by
  refine ⟨fun points shape => ?_, fun s points x curve => ?_, fun points start target elapsed duration shape _ => ?_⟩
  · have shaped := shaped_of_shapeOk shape
    refine ⟨fun i a b x ha hb lo hi => progressOn_segment shaped.rising ha hb lo hi, fun x lt => ?_, shaped.progress_end⟩
    obtain ⟨i, a, b, ha, hb, lo, hi⟩ := exists_segment shaped.head shaped.last (Nat.zero_le x) lt
    refine ⟨i, ⟨a, b, ha, hb, lo, hi⟩, ?_⟩
    rintro j ⟨c, d, hc, hd, lo', hi'⟩
    by_contra ne
    rcases Nat.lt_or_gt_of_ne ne with before | after
    · have := rising_getElem?_le shaped.rising hd ha before
      omega
    · have := rising_getElem?_le shaped.rising hb hc after
      omega
  · obtain rfl : linearCurve = points := Option.some.inj curve
    exact progressOn_linear x
  · have shaped := shaped_of_shapeOk shape
    have bounds := shaped.progress_between (timeFraction_le elapsed duration)
    obtain ⟨lo, hi⟩ := levelAt_between (start := start) (target := target) bounds.1 bounds.2
    refine ⟨bounds, lo, hi, fun ended => ?_⟩
    rw [timeFraction, if_pos ended, shaped.progress_end]
    exact levelAt_end start target

end Sys2Proof.Machine
end

section
/-! SUPPORT. The counts of the live cue list and of the tags, kept while items end, and what the accounting leaves of the
player. -/

namespace Sys2Proof.Machine

/-! ## Lists of counters -/

/-- A list of counters agrees with `f`: no key has two, each counts from 1 what `f` says of its key, and every key that
`f` counts has one, but for the keys that stand apart (R60, R69, R89, R90). -/
structure Tally {α : Type} (key count : α → Nat) (apart : Nat → Prop) (f : Nat → Nat) (l : List α) : Prop where
  nodup : (l.map key).Nodup
  counted : ∀ e ∈ l, ¬ apart (key e) → 1 ≤ count e ∧ count e = f (key e)
  complete : ∀ n, ¬ apart n → 1 ≤ f n → ∃ e ∈ l, key e = n

/-- `f` with one item of key `n` fewer. -/
def lessAt (n : Nat) (f : Nat → Nat) : Nat → Nat := fun m => if m = n then f m - 1 else f m

@[simp] theorem lessAt_self (n : Nat) (f : Nat → Nat) : lessAt n f n = f n - 1 := by simp [lessAt]

theorem lessAt_ne {n m : Nat} (f : Nat → Nat) (h : m ≠ n) : lessAt n f m = f m := by simp [lessAt, h]

section Tally

variable {α : Type} {key count : α → Nat} {apart : Nat → Prop} {f g : Nat → Nat} {l : List α} {n : Nat}

/-- Only the counts of keys that do not stand apart matter. -/
theorem Tally.congr (h : Tally key count apart f l) (same : ∀ m, ¬ apart m → f m = g m) :
    Tally key count apart g l where
  nodup := h.nodup
  counted e he hn := by
    rw [← same _ hn]
    exact h.counted e he hn
  complete m hm pos := h.complete m hm (by rwa [same m hm])

/-- A key without a counter stands apart or owns nothing, so an item of it that ends changes nothing. -/
theorem Tally.less_absent (h : Tally key count apart f l) (absent : ∀ e ∈ l, key e ≠ n) :
    Tally key count apart (lessAt n f) l := by
  refine h.congr fun m hm => ?_
  by_cases e : m = n
  · subst e
    have zero : ¬ 1 ≤ f m := fun pos => by
      obtain ⟨e, he, hk⟩ := h.complete m hm pos
      exact absent e he hk
    simp
    omega
  · exact (lessAt_ne f e).symm

/-- The last item of a key ends, and its counter goes. -/
theorem Tally.less_drop (h : Tally key count apart f l) (last : ¬ apart n → f n ≤ 1) :
    Tally key count apart (lessAt n f) (l.filter fun e => key e != n) where
  nodup := h.nodup.sublist (List.filter_sublist.map key)
  counted e he hn := by
    obtain ⟨mem, ne⟩ := List.mem_filter.mp he
    have ne : key e ≠ n := by simpa using ne
    rw [lessAt_ne f ne]
    exact h.counted e mem hn
  complete m hm pos := by
    by_cases e : m = n
    · subst e
      have := last hm
      simp at pos
      omega
    · rw [lessAt_ne f e] at pos
      obtain ⟨x, hx, hk⟩ := h.complete m hm pos
      exact ⟨x, List.mem_filter.mpr ⟨hx, by simpa [hk] using e⟩, hk⟩

/-- The counters after one is replaced by another of its key. -/
theorem map_key_replace (new : α) (hk : key new = n) :
    (l.map fun x => if key x == n then new else x).map key = l.map key := by
  rw [List.map_map]
  apply List.map_congr_left
  intro x _
  simp only [Function.comp]
  split
  · next e => simp at e; rw [hk, e]
  · rfl

/-- An item of a key ends, and its counter falls. -/
theorem Tally.less_put (h : Tally key count apart f l) (new : α) (hk : key new = n)
    (val : ¬ apart n → 1 ≤ count new ∧ count new = f n - 1) :
    Tally key count apart (lessAt n f) (l.map fun x => if key x == n then new else x) where
  nodup := by
    rw [map_key_replace new hk]
    exact h.nodup
  counted e he hn := by
    obtain ⟨x, hx, rfl⟩ := List.mem_map.mp he
    by_cases eq : key x = n
    · simp only [eq, beq_self_eq_true, if_true, hk] at hn ⊢
      simpa using val hn
    · simp only [beq_iff_eq, eq, if_false] at hn ⊢
      rw [lessAt_ne f eq]
      exact h.counted x hx hn
  complete m hm pos := by
    have pos : 1 ≤ f m := by
      unfold lessAt at pos
      split at pos <;> omega
    obtain ⟨x, hx, hkx⟩ := h.complete m hm pos
    refine ⟨_, List.mem_map.mpr ⟨x, hx, rfl⟩, ?_⟩
    split
    · next e => simp at e; rw [hk, ← e, hkx]
    · exact hkx

theorem Tally.nil (zero : ∀ m, ¬ apart m → f m = 0) : Tally key count apart f [] where
  nodup := List.nodup_nil
  counted e he := absurd he (List.not_mem_nil)
  complete m hm pos := by
    rw [zero m hm] at pos
    omega

/-- Nothing is owned where no counter stands. -/
theorem Tally.eq_zero (h : Tally key count apart f []) (hm : ¬ apart n) : f n = 0 := by
  by_contra ne
  obtain ⟨e, he, _⟩ := h.complete n hm (by omega)
  exact absurd he (List.not_mem_nil)

end Tally

/-! ## What accounting does to the player and the tags -/

/-- What the state of a player says of its live cue list and its follow timer (R54); the scheduled starts follow from
the counts of the live cue list. -/
def Player.Shape (p : Player) : Prop :=
  match p.state with
  | .running => p.live ≠ [] ∨ p.follow ≠ none
  | .paused => True
  | .waiting => p.live = [] ∧ p.follow = none
  | .stopped => p.live = [] ∧ p.follow = none

/-- `q` comes from `p` by items that ended, scheduled starts apart: position and timers stand, and the state may have become
WAITING (R72). -/
structure Player.Runs (p q : Player) : Prop where
  position : q.position = p.position
  follow : q.follow = p.follow
  resumeTo : q.resumeTo = p.resumeTo
  state : q.state = p.state ∨ p.state = .running ∧ q.state = .waiting
  shape : p.Shape → q.Shape

theorem Player.Runs.refl (p : Player) : p.Runs p := ⟨rfl, rfl, rfl, .inl rfl, id⟩

theorem Player.Runs.trans {p q r : Player} (h : p.Runs q) (k : q.Runs r) : p.Runs r where
  position := k.position.trans h.position
  follow := k.follow.trans h.follow
  resumeTo := k.resumeTo.trans h.resumeTo
  state := by
    rcases h.state with a | ⟨a, b⟩ <;> rcases k.state with c | ⟨c, d⟩ <;> simp_all
  shape := k.shape ∘ h.shape

theorem Player.Runs.paused {p q : Player} (h : p.Runs q) : q.state = .paused ↔ p.state = .paused := by
  rcases h.state with a | ⟨a, b⟩ <;> simp_all

theorem Player.Runs.stopped {p q : Player} (h : p.Runs q) : q.state = .stopped ↔ p.state = .stopped := by
  rcases h.state with a | ⟨a, b⟩ <;> simp_all

/-- The scheduled starts are not looked at. -/
theorem Player.Runs.withSched (l : List Sched) (p : Player) : p.Runs { p with sched := l } :=
  ⟨rfl, rfl, rfl, .inl rfl, id⟩

/-- `q` comes from `p` by the accounting of items that ended: the scheduled starts stand too. -/
structure Player.Accounted (p q : Player) : Prop extends Player.Runs p q where
  sched : q.sched = p.sched

theorem Player.Accounted.refl (p : Player) : p.Accounted p := ⟨.refl p, rfl⟩

theorem Player.Accounted.trans {p q r : Player} (h : p.Accounted q) (k : q.Accounted r) : p.Accounted r :=
  ⟨h.toRuns.trans k.toRuns, k.sched.trans h.sched⟩

theorem Player.entry_none {n : Nat} {p : Player} (h : p.entry n = none) : ∀ e ∈ p.live, e.cue ≠ n := by
  simpa [Player.entry] using h

theorem Player.entry_some {n : Nat} {p : Player} {e : Live} (h : p.entry n = some e) : e ∈ p.live ∧ e.cue = n :=
  ⟨List.mem_of_find?_eq_some h, by simpa using List.find?_some h⟩

theorem Player.dropEntry_accounted (n : Nat) (p : Player) (e : Live) (h : p.entry n = some e) :
    p.Accounted (p.dropEntry n) where
  sched := rfl
  position := rfl
  follow := rfl
  resumeTo := rfl
  state := by
    simp only [Player.dropEntry]
    split
    · next c => exact .inr ⟨c.1, rfl⟩
    · exact .inl rfl
  shape sh := by
    have mem := (Player.entry_some h).1
    simp only [Player.Shape, Player.dropEntry] at sh ⊢
    cases hs : p.state <;> simp only [hs] at sh ⊢
    case stopped => simp [sh.1] at mem
    case waiting => simp [sh.1] at mem
    case paused => simp
    case running =>
      by_cases gone : p.live.filter (fun x => x.cue != n) = []
      · by_cases fol : p.follow = none <;> simp [gone, fol]
      · simp [gone]

theorem Player.putEntry_accounted (n : Nat) (x : Live) (p : Player) : p.Accounted (p.putEntry n x) where
  sched := rfl
  position := rfl
  follow := rfl
  resumeTo := rfl
  state := .inl rfl
  shape sh := by
    simp only [Player.Shape, Player.putEntry] at sh ⊢
    cases hs : p.state <;> simp only [hs] at sh ⊢ <;> simpa using sh

theorem accountCue_accounted (hold : Hold) (n : Nat) (cut : Bool) (s : State) :
    s.player.Accounted (accountCue hold n cut s).player := by
  unfold accountCue
  split
  · exact .refl _
  · next e he =>
    dsimp only
    split
    · exact Player.dropEntry_accounted n s.player e he
    · exact Player.putEntry_accounted n _ s.player

theorem endNotice_accounted (hold : Hold) (o : Owner) (cut : Bool) (s : State) :
    s.player.Accounted (endNotice hold o cut s).player := by
  unfold endNotice
  split
  · exact accountCue_accounted _ _ _ _
  · split
    · exact .refl _
    · rw [accountTag_player]
      exact .refl _
  · exact .refl _

theorem removeContext_accounted (hold : Hold) (c : Chan) (s : State) :
    s.player.Accounted (removeContext hold c s).player := by
  unfold removeContext
  split
  · exact .refl _
  · exact endNotice_accounted hold _ true (s.setChan c { s.chan c with fade := none })

theorem startRequest_accounted (hold : Hold) (q : StartReq) (s : State) :
    s.player.Accounted (startRequest hold q s).1.player := by
  unfold startRequest
  split
  · exact .refl _
  · dsimp only
    split <;> exact removeContext_accounted hold q.channel s

/-- A channel clearing request is an accounting, but for the scheduled starts it removes. -/
theorem clearSched_runs (hold : Hold) (set : Chan → Bool) (s : State) :
    s.player.Runs (clearSched hold set s).player := by
  unfold clearSched
  generalize s.player.sched.filter (fun e => set e.channel) = gone
  have fold : ∀ (l : List Sched) (u : State),
      u.player.Runs (l.foldl (fun s e => accountCue hold e.owner true s) u).player := by
    intro l
    induction l with
    | nil => exact fun u => .refl _
    | cons e rest ih => exact fun u => (accountCue_accounted hold e.owner true u).toRuns.trans (ih _)
  exact (Player.Runs.withSched _ s.player).trans
    (fold gone (s.setPlayer { s.player with sched := s.player.sched.filter fun e => !set e.channel }))

/-- One item of cue `n` has ended: its count falls by one. -/
theorem accountCue_tally {apart : Nat → Prop} {f : Nat → Nat} {hold : Hold} (within : ∀ n, hold.cue = some n → apart n)
    (n : Nat) (cut : Bool) (s : State) (h : Tally Live.cue Live.count apart f s.player.live) :
    Tally Live.cue Live.count apart (lessAt n f) (accountCue hold n cut s).player.live := by
  unfold accountCue
  split
  · next absent => exact h.less_absent (Player.entry_none absent)
  · next e he =>
    obtain ⟨mem, hn⟩ := Player.entry_some he
    have val : ¬ apart n → 1 ≤ e.count ∧ e.count = f n := fun ne => by
      rw [← hn]
      exact h.counted e mem (by rwa [hn])
    dsimp only
    split
    · next zero =>
      refine h.less_drop fun ne => ?_
      have := val ne
      have : e.count - 1 = 0 := zero.1
      omega
    · next some_left =>
      refine h.less_put (e.ended cut) hn fun ne => ?_
      have := val ne
      have : ¬ (e.count - 1 = 0) := fun z => some_left ⟨z, fun held => ne (within _ held)⟩
      simp only [Live.ended]
      omega

theorem FadeEngine.batch_none {t : Nat} {f : FadeEngine} (h : f.batch t = none) : ∀ x ∈ f.tags, x.tag ≠ t := by
  simpa [FadeEngine.batch] using h

theorem FadeEngine.batch_some {t : Nat} {f : FadeEngine} {x : Batch} (h : f.batch t = some x) :
    x ∈ f.tags ∧ x.tag = t :=
  ⟨List.mem_of_find?_eq_some h, by simpa using List.find?_some h⟩

/-- A context of tag `t` has ended: the count of its batch falls by one. -/
theorem accountTag_tally {apart : Nat → Prop} {f : Nat → Nat} {hold : Hold} (within : ∀ t, hold.tag = some t → apart t)
    (t : Nat) (cut : Bool) (s : State) (h : Tally Batch.tag Batch.count apart f s.fade.tags) :
    Tally Batch.tag Batch.count apart (lessAt t f) (accountTag hold t cut s).fade.tags := by
  unfold accountTag
  split
  · next absent => exact h.less_absent (FadeEngine.batch_none absent)
  · next x hx =>
    obtain ⟨mem, ht⟩ := FadeEngine.batch_some hx
    have val : ¬ apart t → 1 ≤ x.count ∧ x.count = f t := fun ne => by
      rw [← ht]
      exact h.counted x mem (by rwa [ht])
    dsimp only
    split
    · next zero =>
      refine h.less_drop fun ne => ?_
      have := val ne
      have : x.count - 1 = 0 := zero.1
      omega
    · next some_left =>
      refine h.less_put _ ht fun ne => ?_
      have := val ne
      have : ¬ (x.count - 1 = 0) := fun z => some_left ⟨z, fun held => ne (within _ held)⟩
      dsimp only
      omega

/-- The accounting of tags keeps a record's tag away from 0. -/
theorem accountTag_named (hold : Hold) (t : Nat) (cut : Bool) (s : State) (h : ∀ x ∈ s.fade.tags, x.tag ≠ 0) :
    ∀ x ∈ (accountTag hold t cut s).fade.tags, x.tag ≠ 0 := by
  unfold accountTag
  split
  · exact h
  · next b hb =>
    obtain ⟨mem, ht⟩ := FadeEngine.batch_some hb
    dsimp only
    split
    · exact fun x hx => h x (List.mem_of_mem_filter hx)
    · intro x hx
      obtain ⟨y, hy, rfl⟩ := List.mem_map.mp hx
      split
      · exact h b mem
      · exact h y hy

end Sys2Proof.Machine
end

section
/-! SUPPORT. The counts of the live cue list and of the batch records against what cues and tags own, kept by every operation
on contexts and scheduled starts. -/

namespace Sys2Proof.Machine

/-! ## What owners hold -/

/-- The channel holds a fade context of this owner. -/
def Channel.holds (o : Owner) (r : Channel) : Bool :=
  match r.fade with
  | some x => x.owner == o
  | none => false

/-- The number of fade contexts of an owner. -/
def FadeEngine.holding (o : Owner) (f : FadeEngine) : Nat := (Table.entries f.chans).countP (Channel.holds o)

theorem FadeEngine.tagged_eq (t : Nat) (f : FadeEngine) : f.tagged t = f.holding (.direct t) := rfl

theorem Channel.holds_none {o : Owner} {r : Channel} (h : r.fade = none) : r.holds o = false := by
  simp [Channel.holds, h]

theorem Channel.holds_some {o : Owner} {r : Channel} {f : Fade} (h : r.fade = some f) :
    r.holds o = (f.owner == o) := by simp [Channel.holds, h]

/-- The number of contexts depends on the channel records alone. -/
theorem FadeEngine.holding_congr {f g : FadeEngine} (o : Owner) (h : f.chans = g.chans) :
    f.holding o = g.holding o := by rw [FadeEngine.holding, h, FadeEngine.holding]

theorem State.holding_setChan (o : Owner) (c : Chan) (r : Channel) (s : State) :
    (s.setChan c r).fade.holding o + (if (s.chan c).holds o then 1 else 0)
      = s.fade.holding o + (if r.holds o then 1 else 0) :=
  Table.countP_put (Channel.holds o) s.fade.chans c r

/-- A channel record replaced by one with the same context changes no count. -/
theorem State.holding_setChan_same (o : Owner) (c : Chan) (r : Channel) (s : State)
    (h : r.holds o = (s.chan c).holds o) : (s.setChan c r).fade.holding o = s.fade.holding o := by
  have := s.holding_setChan o c r
  rw [h] at this
  omega

/-- A context that leaves its channel leaves the count of its owner. -/
theorem State.holding_remove {o : Owner} {c : Chan} {r : Channel} {s : State} {f : Fade}
    (hf : (s.chan c).fade = some f) (hr : r.fade = none) :
    s.fade.holding o = (s.setChan c r).fade.holding o + (if f.owner = o then 1 else 0) := by
  have := s.holding_setChan o c r
  rw [Channel.holds_none hr, Channel.holds_some hf] at this
  simp only [beq_iff_eq, Bool.false_eq_true, if_false] at this
  omega

/-- A context that starts on a channel without one enters the count of its owner. -/
theorem State.holding_start {o : Owner} {c : Chan} {r : Channel} {s : State} {f : Fade}
    (hf : (s.chan c).fade = none) (hr : r.fade = some f) :
    (s.setChan c r).fade.holding o = s.fade.holding o + (if f.owner = o then 1 else 0) := by
  have := s.holding_setChan o c r
  rw [Channel.holds_none hf, Channel.holds_some hr] at this
  simp only [beq_iff_eq, Bool.false_eq_true, if_false] at this
  omega

theorem FadeEngine.holding_pos {o : Owner} {f : FadeEngine} :
    1 ≤ f.holding o ↔ ∃ c, (Table.at f.chans c).holds o = true := by
  rw [FadeEngine.holding, Nat.succ_le_iff, List.countP_pos_iff]
  constructor
  · rintro ⟨r, hr, ho⟩
    obtain ⟨c, rfl⟩ := Table.mem_entries.mp hr
    exact ⟨c, ho⟩
  · rintro ⟨c, ho⟩
    exact ⟨_, Table.mem_entries.mpr ⟨c, rfl⟩, ho⟩

/-- No context of an owner: its count is 0. -/
theorem FadeEngine.holding_eq_zero {o : Owner} {f : FadeEngine}
    (h : ∀ c x, (Table.at f.chans c).fade = some x → x.owner ≠ o) : f.holding o = 0 := by
  by_contra ne
  obtain ⟨c, hc⟩ := FadeEngine.holding_pos.mp (Nat.one_le_iff_ne_zero.mpr ne)
  cases hf : (Table.at f.chans c).fade with
  | none => simp [Channel.holds, hf] at hc
  | some x =>
    rw [Channel.holds_some hf] at hc
    exact h c x hf (by simpa using hc)

/-- What a tag's batch counts; the tag 0 has none (R89). -/
def FadeEngine.outstanding (f : FadeEngine) (t : Nat) : Nat := if t = 0 then 0 else f.holding (.direct t)

theorem State.owned_eq (n : Nat) (s : State) : s.owned n = s.fade.holding (.cue n) + s.player.schedOf n := rfl

/-! ## The counts -/

/-- The live cue list and the batch records count what cues and tags own, beside `due` items of each cue whose end is
still to be accounted; these cues and tags stand apart. -/
structure Counts (cues tags : Nat → Prop) (due : Nat → Nat) (s : State) : Prop where
  live : Tally Live.cue Live.count cues (fun n => s.owned n + due n) s.player.live
  batches : Tally Batch.tag Batch.count tags s.fade.outstanding s.fade.tags
  named : ∀ x ∈ s.fade.tags, x.tag ≠ 0

/-- What is held stands apart (R60, R90). -/
structure Hold.Within (hold : Hold) (cues tags : Nat → Prop) : Prop where
  cue : ∀ n, hold.cue = some n → cues n
  tag : ∀ t, hold.tag = some t → tags t

theorem Hold.none_within (cues tags : Nat → Prop) : Hold.none.Within cues tags :=
  ⟨fun _ h => by simp [Hold.none] at h, fun _ h => by simp [Hold.none] at h⟩

/-- No cue, or no tag, stands apart. -/
def noneApart : Nat → Prop := fun _ => False

/-- Nothing is due. -/
def noDue : Nat → Nat := fun _ => 0

section Counts

variable {cues tags : Nat → Prop} {due due' : Nat → Nat} {hold : Hold} {s t : State}

/-- Nothing more is counted where more stands apart. -/
theorem Tally.mono {α : Type} {key count : α → Nat} {apart apart' : Nat → Prop} {f : Nat → Nat} {l : List α}
    (h : Tally key count apart f l) (sub : ∀ n, apart n → apart' n) : Tally key count apart' f l where
  nodup := h.nodup
  counted e he hn := h.counted e he fun a => hn (sub _ a)
  complete n hn pos := h.complete n (fun a => hn (sub _ a)) pos

theorem Counts.mono {cues' tags' : Nat → Prop} (h : Counts cues tags due s) (subCues : ∀ n, cues n → cues' n)
    (subTags : ∀ t, tags t → tags' t) : Counts cues' tags' due s :=
  ⟨h.live.mono subCues, h.batches.mono subTags, h.named⟩

/-- The counts depend on the owners of the contexts, the tags, the live entries and the owners of the scheduled starts
alone. -/
theorem Counts.congr (h : Counts cues tags due s) (holding : ∀ o, t.fade.holding o = s.fade.holding o)
    (same : t.fade.tags = s.fade.tags) (live : t.player.live = s.player.live)
    (sched : ∀ n, t.player.schedOf n = s.player.schedOf n) : Counts cues tags due t where
  live := by
    rw [live]
    exact h.live.congr fun m _ => by rw [State.owned_eq, State.owned_eq, holding, sched]
  batches := by
    rw [same]
    exact h.batches.congr fun m _ => by rw [FadeEngine.outstanding, FadeEngine.outstanding, holding]
  named := by
    rw [same]
    exact h.named

/-- An item of cue `n` that was due is accounted. -/
theorem accountCue_counts (n : Nat) (cut : Bool) (within : hold.Within cues tags) (h : Counts cues tags due s)
    (less : ∀ m, due m = due' m + if m = n then 1 else 0) : Counts cues tags due' (accountCue hold n cut s) where
  live := by
    refine (accountCue_tally within.cue n cut s h.live).congr fun m hm => ?_
    have sched := (accountCue_accounted hold n cut s).sched
    rw [State.owned_eq m (accountCue hold n cut s), accountCue_fade, Player.schedOf, sched, ← Player.schedOf,
      ← State.owned_eq]
    have := less m
    unfold lessAt
    split <;> simp_all
  batches := by
    rw [accountCue_fade]
    exact h.batches
  named := by
    rw [accountCue_fade]
    exact h.named

/-- A context that leaves its channel and is noticed to its accountant keeps the counts (R22, R23). -/
theorem endContext_counts {c : Chan} {r : Channel} {f : Fade} (cut : Bool) (within : hold.Within cues tags)
    (h : Counts cues tags due s) (hf : (s.chan c).fade = some f) (hr : r.fade = none) :
    Counts cues tags due (endNotice hold f.owner cut (s.setChan c r)) := by
  have holding (o : Owner) := State.holding_remove (o := o) hf hr
  have owned (n : Nat) : s.owned n = (s.setChan c r).owned n + (if f.owner = .cue n then 1 else 0) := by
    rw [State.owned_eq, State.owned_eq, holding (.cue n), State.setChan_player]
    omega
  have outstanding (t : Nat) :
      s.fade.outstanding t = (s.setChan c r).fade.outstanding t + (if t ≠ 0 ∧ f.owner = .direct t then 1 else 0) := by
    rw [FadeEngine.outstanding, FadeEngine.outstanding, holding (.direct t)]
    split <;> simp_all
  unfold endNotice
  cases ho : f.owner with
  | cue n =>
    refine accountCue_counts (due := fun m => due m + if m = n then 1 else 0) n cut within ⟨?_, ?_, h.named⟩ fun m => rfl
    · refine h.live.congr fun m _ => ?_
      rw [owned m, ho]
      simp only [Owner.cue.injEq, eq_comm (a := n) (b := m)]
      omega
    · refine h.batches.congr fun t _ => ?_
      rw [outstanding t, ho]
      simp
  | direct g =>
    have live : Tally Live.cue Live.count cues (fun n => (s.setChan c r).owned n + due n) s.player.live :=
      h.live.congr fun m _ => by
        rw [owned m, ho]
        simp
    have batches (t : Nat) (ne : g = t → t = 0) : s.fade.outstanding t = (s.setChan c r).fade.outstanding t := by
      rw [outstanding t, ho, if_neg, Nat.add_zero]
      rintro ⟨a, b⟩
      injection b with b
      exact a (ne b)
    dsimp only
    split
    · next zero =>
      subst zero
      exact ⟨live, h.batches.congr fun t _ => batches t fun e => e.symm, h.named⟩
    · next nonzero =>
      refine ⟨?_, ?_, accountTag_named _ _ _ _ h.named⟩
      · rw [accountTag_player]
        refine live.congr fun m _ => ?_
        rw [State.owned_eq, State.owned_eq, accountTag_player, FadeEngine.holding_congr _ (accountTag_chans _ _ _ _)]
      · refine (accountTag_tally within.tag g cut (s.setChan c r) h.batches).congr fun t _ => ?_
        have same : (accountTag hold g cut (s.setChan c r)).fade.outstanding t
            = (s.setChan c r).fade.outstanding t := by
          rw [FadeEngine.outstanding, FadeEngine.outstanding, FadeEngine.holding_congr _ (accountTag_chans _ _ _ _)]
        rw [same]
        by_cases e : t = g
        · subst e
          rw [lessAt_self, outstanding t, ho]
          simp [nonzero]
        · rw [lessAt_ne _ e]
          exact batches t fun e' => absurd e'.symm e
  | release =>
    refine ⟨h.live.congr fun m _ => ?_, h.batches.congr fun t _ => ?_, h.named⟩
    · rw [owned m, ho]
      simp
    · rw [outstanding t, ho]
      simp

theorem removeContext_counts (c : Chan) (within : hold.Within cues tags) (h : Counts cues tags due s) :
    Counts cues tags due (removeContext hold c s) := by
  unfold removeContext
  split
  · exact h
  · next f hf => exact endContext_counts (r := { s.chan c with fade := none }) true within h hf rfl

/-- A new context of this owner fits the counts: its cue stands apart or has an item due that becomes the context, its tag
stands apart or is 0, or RELEASE owns it. -/
def Owner.Fits (cues tags : Nat → Prop) (due due' : Nat → Nat) : Owner → Prop
  | .cue n => (cues n ∧ due' = due) ∨ ∀ m, due m = due' m + if m = n then 1 else 0
  | .direct t => (t = 0 ∨ tags t) ∧ due' = due
  | .release => due' = due

/-- A context that starts on a channel without one keeps the counts, if its owner fits them. -/
theorem startContext_counts {c : Chan} {r : Channel} {f : Fade} (h : Counts cues tags due s)
    (hf : (s.chan c).fade = none) (hr : r.fade = some f) (fits : f.owner.Fits cues tags due due') :
    Counts cues tags due' (s.setChan c r) := by
  have holding (o : Owner) := State.holding_start (o := o) hf hr
  refine ⟨h.live.congr fun m hm => ?_, h.batches.congr fun t ht => ?_, h.named⟩
  · have owned : (s.setChan c r).owned m = s.owned m + (if f.owner = .cue m then 1 else 0) := by
      rw [State.owned_eq, State.owned_eq, holding (.cue m), State.setChan_player]
      omega
    rw [owned]
    cases ho : f.owner with
    | cue n =>
      rw [ho] at fits
      rcases fits with ⟨held, same⟩ | less
      · have ne : n ≠ m := fun e => hm (e ▸ held)
        simp [ne, same]
      · have := less m
        simp only [Owner.cue.injEq, eq_comm (a := n) (b := m)]
        omega
    | direct t =>
      rw [ho] at fits
      simp [fits.2]
    | release =>
      rw [ho] at fits
      simp [show due' = due from fits]
  · rw [FadeEngine.outstanding, FadeEngine.outstanding, holding (.direct t)]
    split
    · rfl
    · next nonzero =>
      have ne : f.owner ≠ .direct t := fun e => by
        rw [e] at fits
        rcases fits.1 with z | held
        · exact nonzero z
        · exact ht held
      simp [ne]

/-- A channel record replaced by one with the same context keeps the counts. -/
theorem sameContext_counts {c : Chan} {r : Channel} (h : Counts cues tags due s)
    (same : ∀ o, r.holds o = (s.chan c).holds o) : Counts cues tags due (s.setChan c r) :=
  h.congr (fun o => State.holding_setChan_same o c r s (same o)) rfl rfl fun _ => rfl

/-- A start request whose owner fits keeps the counts; what was due of its cue is due on if no context starts. -/
theorem startRequest_counts (q : StartReq) (within : hold.Within cues tags) (h : Counts cues tags due s)
    (fits : q.owner.Fits cues tags due due') :
    Counts cues tags (if (startRequest hold q s).2 = .started then due' else due) (startRequest hold q s).1 := by
  rw [startRequest_result]
  unfold startRequest
  split
  · exact h
  · have gone : ((removeContext hold q.channel s).chan q.channel).fade = none := by simp [removeContext_chan]
    have kept := removeContext_counts q.channel within h
    dsimp only
    split
    · exact sameContext_counts kept fun o => rfl
    · exact startContext_counts kept gone rfl fits

/-- A start request that changes no due count keeps the counts. -/
theorem startRequest_counts_same (q : StartReq) (within : hold.Within cues tags) (h : Counts cues tags due s)
    (fits : q.owner.Fits cues tags due due) : Counts cues tags due (startRequest hold q s).1 := by
  have := startRequest_counts q within h fits
  rwa [ite_self] at this

/-- The scheduled starts that a channel clearing request takes out are due until they are accounted (R66). -/
theorem clearSched_counts (set : Chan → Bool) (within : hold.Within cues tags) (h : Counts cues tags due s) :
    Counts cues tags due (clearSched hold set s) := by
  have fold : ∀ (gone : List Sched) (u : State),
      Counts cues tags (fun n => due n + gone.countP fun e => e.owner == n) u →
      Counts cues tags due (gone.foldl (fun s e => accountCue hold e.owner true s) u) := by
    intro gone
    induction gone with
    | nil => exact fun u hu => by simpa using hu
    | cons e rest ih =>
      intro u hu
      refine ih _ (accountCue_counts e.owner true within hu fun m => ?_)
      simp only [List.countP_cons, beq_iff_eq, eq_comm (a := e.owner) (b := m)]
      omega
  unfold clearSched
  refine fold _ _ ⟨h.live.congr fun m _ => ?_, h.batches, h.named⟩
  have split : s.player.schedOf m = (s.player.sched.filter fun e => !set e.channel).countP (fun e => e.owner == m)
      + (s.player.sched.filter fun e => set e.channel).countP fun e => e.owner == m := by
    rw [Player.schedOf, List.countP_eq_countP_filter_add _ _ (fun e : Sched => !set e.channel)]
    simp
  rw [State.owned_eq, State.owned_eq, split]
  simp only [State.setPlayer_fade, State.setPlayer_player, Player.schedOf]
  omega

end Counts

/-! ## The laws from the counts -/

/-- The live cue list and the batch records count exactly what cues and tags own. -/
abbrev Counted (s : State) : Prop := Counts noneApart noneApart noDue s

theorem Counted.laws {s : State} (h : Counted s) : LiveLaw s ∧ TagLaw s := by
  refine ⟨⟨h.live.nodup, fun e he => h.live.counted e he id, fun n pos => h.live.complete n id pos⟩,
    h.batches.nodup, fun b hb => ?_, fun t ht pos => ?_⟩
  · have counted := h.batches.counted b hb id
    have named := h.named b hb
    rw [FadeEngine.outstanding, if_neg named] at counted
    exact ⟨named, counted⟩
  · refine h.batches.complete t id ?_
    rw [FadeEngine.outstanding, if_neg ht]
    exact pos

theorem counted_of_laws {s : State} (live : LiveLaw s) (tags : TagLaw s) : Counted s := by
  obtain ⟨nodup, counted, complete⟩ := live
  obtain ⟨tagNodup, tagCounted, tagComplete⟩ := tags
  refine ⟨⟨nodup, fun e he _ => counted e he, fun n _ pos => complete n pos⟩,
    ⟨tagNodup, fun b hb _ => ?_, fun t _ pos => ?_⟩, fun b hb => (tagCounted b hb).1⟩
  · obtain ⟨named, counts⟩ := tagCounted b hb
    rw [FadeEngine.outstanding, if_neg named]
    exact counts
  · rw [FadeEngine.outstanding] at pos
    split at pos
    · omega
    · next ht => exact tagComplete t ht pos

/-- Where no cue is live, no scheduled start waits and no context belongs to a cue. -/
theorem Counted.owned_zero {s : State} (h : Counted s) (live : s.player.live = []) (n : Nat) : s.owned n = 0 := by
  have tally := h.live
  rw [live] at tally
  exact tally.eq_zero id

theorem Counted.sched_nil {s : State} (h : Counted s) (live : s.player.live = []) : s.player.sched = [] := by
  cases e : s.player.sched with
  | nil => rfl
  | cons x rest =>
    have := h.owned_zero live x.owner
    simp [State.owned_eq, Player.schedOf, e] at this

end Sys2Proof.Machine
end

section
/-! SUPPORT. The channel records and the scheduled starts within their ranges, parks and freezes in agreement with the player,
and the order of the scheduled start list, kept by every operation of the fade engine. -/

namespace Sys2Proof.Machine

/-! ## Records within their ranges -/

/-- A fade context has its ends and its duration in range, names a defined curve, and is frozen exactly if it belongs to a
cue of a paused player (R6, R13, R54). -/
structure Fade.Ok (w : Show) (paused : Bool) (f : Fade) : Prop where
  frozen : f.frozen = true ↔ paused = true ∧ ∃ n, f.owner = .cue n
  start : f.start ≤ 4095
  target : f.target ≤ 4095
  lasts : 1 ≤ f.duration
  duration : f.duration ≤ 600000
  curve : (w.curve f.curve).isSome

/-- A channel record has its level in range, stands at its park without a fade if parked, and its context is in range
(R1). -/
structure Channel.Ok (w : Show) (paused : Bool) (r : Channel) : Prop where
  level : r.level ≤ 4095
  park : ∀ l, r.park = some l → r.level = l ∧ r.fade = none
  fade : ∀ f, r.fade = some f → f.Ok w paused

/-- A scheduled start has its fields in range and names a defined curve (R13, R62). -/
structure Sched.Ok (w : Show) (e : Sched) : Prop where
  target : e.target ≤ 4095
  time : e.time ≤ 600000
  left : e.left.remaining ≤ 60000
  curve : (w.curve e.curve).isSome

/-- The scheduled start list names no channel twice, and stands in order of what is left, held or running (R62, R63). -/
def SchedOrder (paused : Bool) (now : Time) (l : List Sched) : Prop :=
  (l.map (·.channel)).Nodup
    ∧ if paused then l.Pairwise fun a b => a.left.remaining ≤ b.left.remaining
      else (∀ e ∈ l, since now e.left.lastAdvance ≤ e.left.remaining)
        ∧ l.Pairwise fun a b => a.left.leftAt now ≤ b.left.leftAt now

theorem SchedOrder.nil (paused : Bool) (now : Time) : SchedOrder paused now [] := by
  cases paused <;> simp [SchedOrder]

theorem SchedOrder.sublist {paused : Bool} {now : Time} {l l' : List Sched} (h : SchedOrder paused now l)
    (sub : l'.Sublist l) : SchedOrder paused now l' := by
  obtain ⟨nodup, order⟩ := h
  refine ⟨nodup.sublist (sub.map _), ?_⟩
  cases paused with
  | true => exact List.Pairwise.sublist sub order
  | false => exact ⟨fun e he => order.1 e (sub.subset he), List.Pairwise.sublist sub order.2⟩

/-- The channel records and the scheduled starts are in range, no scheduled start names a parked channel, and the list is
in order, of a player that is paused or not. -/
structure Engine (paused : Bool) (s : State) : Prop where
  chans : ∀ c, (s.chan c).Ok s.working paused
  entries : ∀ e ∈ s.player.sched, e.Ok s.working
  unparked : ∀ e ∈ s.player.sched, (s.chan e.channel).park = none
  order : SchedOrder paused s.now s.player.sched

/-- The master and its fade are in range (R96). -/
def FadeEngine.MasterOk (f : FadeEngine) : Prop :=
  f.master ≤ 1000
    ∧ ∀ m, f.masterCtx = some m → m.start ≤ 1000 ∧ m.target ≤ 1000 ∧ 1 ≤ m.duration ∧ m.duration ≤ 60000

section Engine

variable {paused : Bool} {s t : State} {hold : Hold}

theorem Fade.Ok.curves {w w' : Show} {f : Fade} (h : f.Ok w paused) (same : w'.curves = w.curves) : f.Ok w' paused where
  frozen := h.frozen
  start := h.start
  target := h.target
  lasts := h.lasts
  duration := h.duration
  curve := by
    have := h.curve
    unfold Show.curve at this ⊢
    rwa [same]

/-- An operation that changes channel records to good ones, and takes scheduled starts out at most, keeps the engine. -/
theorem Engine.of_chans (h : Engine paused s) (p : Played s t) (chans : ∀ c, (t.chan c).Ok s.working paused)
    (sub : t.player.sched.Sublist s.player.sched)
    (parks : ∀ e ∈ t.player.sched, (s.chan e.channel).park = none → (t.chan e.channel).park = none) :
    Engine paused t where
  chans c := by
    rw [p.working]
    exact chans c
  entries e he := by
    rw [p.working]
    exact h.entries e (sub.subset he)
  unparked e he := parks e he (h.unparked e (sub.subset he))
  order := by
    rw [p.now]
    exact h.order.sublist sub

/-- An operation on the scheduled start list alone, and on what surrounds it. -/
theorem Engine.of_same_chans (h : Engine paused s) (p : Played s t) (chans : ∀ c, t.chan c = s.chan c)
    (sub : t.player.sched.Sublist s.player.sched) : Engine paused t :=
  h.of_chans p (fun c => by rw [chans c]; exact h.chans c) sub fun e _ hp => by rwa [chans]

theorem Channel.Ok.noFade {w : Show} {r : Channel} (h : r.Ok w paused) : Channel.Ok w paused { r with fade := none } where
  level := h.level
  park l hl := ⟨(h.park l hl).1, rfl⟩
  fade f hf := by simp at hf

theorem removeContext_engine (c : Chan) (h : Engine paused s) : Engine paused (removeContext hold c s) := by
  refine h.of_chans (removeContext_played hold c s) (fun d => ?_) ?_ fun e _ hp => ?_
  · rw [removeContext_chan]
    split
    · exact (h.chans d).noFade
    · exact h.chans d
  · rw [(removeContext_accounted hold c s).sched]
  · rw [removeContext_chan]
    split <;> exact hp

/-- The operands of a start request are in range, and a cue asks only while the player is not paused. -/
structure StartReq.Ok (w : Show) (paused : Bool) (q : StartReq) : Prop where
  target : q.target ≤ 4095
  duration : q.duration ≤ 600000
  curve : (w.curve q.curve).isSome
  owner : ∀ n, q.owner = .cue n → paused = false

theorem Channel.started_ok {w : Show} {now : Time} {q : StartReq} {r : Channel} (hq : q.Ok w paused)
    (h : r.Ok w paused) : (r.started now q).Ok w paused := by
  unfold Channel.started
  split
  · exact h
  · next unparked =>
    have free : r.park = none := by simpa [Channel.isParked] using unparked
    split
    · exact ⟨hq.target, fun l hl => by simp [free] at hl, fun f hf => by simp at hf⟩
    · next lasts =>
      refine ⟨h.level, fun l hl => by simp [free] at hl, fun f hf => ?_⟩
      obtain rfl := Option.some.inj hf
      refine ⟨?_, h.level, hq.target, by dsimp only; omega, hq.duration, hq.curve⟩
      constructor
      · simp
      · rintro ⟨hp, n, hn⟩
        rw [hq.owner n hn] at hp
        simp at hp

@[simp] theorem Channel.started_park (now : Time) (q : StartReq) (r : Channel) : (r.started now q).park = r.park := by
  unfold Channel.started
  split
  · rfl
  · split <;> rfl

theorem startRequest_engine {q : StartReq} (hq : q.Ok s.working paused) (h : Engine paused s) :
    Engine paused (startRequest hold q s).1 := by
  refine h.of_chans (startRequest_played hold q s) (fun d => ?_) ?_ fun e _ hp => ?_
  · rw [startRequest_chan]
    split
    · exact Channel.started_ok hq (h.chans d)
    · exact h.chans d
  · rw [(startRequest_accounted hold q s).sched]
  · rw [startRequest_chan]
    split
    · rwa [Channel.started_park]
    · exact hp

theorem accountCue_engine (n : Nat) (cut : Bool) (h : Engine paused s) : Engine paused (accountCue hold n cut s) :=
  h.of_same_chans (accountCue_played hold n cut s) (fun c => by simp [State.chan])
    (by rw [(accountCue_accounted hold n cut s).sched])

theorem clearSched_engine (set : Chan → Bool) (h : Engine paused s) : Engine paused (clearSched hold set s) :=
  h.of_same_chans (clearSched_played hold set s) (fun c => clearSched_chan hold set s c)
    (by
      rw [clearSched_sched]
      exact List.filter_sublist)

end Engine

/-! ## The scheduled start list -/

/-- The list after an insertion holds the new entry and the old ones. -/
theorem insertSched_perm (now : Time) (e : Sched) (l : List Sched) : (insertSched now e l).Perm (e :: l) := by
  induction l with
  | nil => exact .refl _
  | cons x rest ih =>
    unfold insertSched
    split
    · exact (ih.cons x).trans (.swap e x rest)
    · exact .refl _

theorem mem_insertSched {now : Time} {e x : Sched} {l : List Sched} :
    x ∈ insertSched now e l ↔ x = e ∨ x ∈ l := by
  rw [(insertSched_perm now e l).mem_iff, List.mem_cons]

/-- An insertion keeps the order of what is left (R62). -/
theorem insertSched_pairwise (now : Time) (e : Sched) (l : List Sched)
    (h : l.Pairwise fun a b => a.left.leftAt now ≤ b.left.leftAt now) :
    (insertSched now e l).Pairwise fun a b => a.left.leftAt now ≤ b.left.leftAt now := by
  induction l with
  | nil => simp [insertSched]
  | cons x rest ih =>
    obtain ⟨first, later⟩ := List.pairwise_cons.mp h
    unfold insertSched
    split
    · next le =>
      refine List.pairwise_cons.mpr ⟨fun y hy => ?_, ih later⟩
      rcases mem_insertSched.mp hy with rfl | hy
      · exact le
      · exact first y hy
    · next gt =>
      refine List.pairwise_cons.mpr ⟨fun y hy => ?_, h⟩
      rcases List.mem_cons.mp hy with rfl | hy
      · omega
      · have := first y hy
        omega

@[simp] theorem since_self (now : Time) : since now now = 0 := by simp [since]

theorem SchedOrder.insert {now : Time} {l : List Sched} {e : Sched} (h : SchedOrder false now l)
    (new : ∀ x ∈ l, x.channel ≠ e.channel) (starts : e.left.lastAdvance = now) :
    SchedOrder false now (insertSched now e l) := by
  obtain ⟨nodup, due, order⟩ := h
  refine ⟨((insertSched_perm now e l).map _).nodup_iff.mpr ?_, fun x hx => ?_, insertSched_pairwise now e l order⟩
  · simp only [List.map_cons, List.nodup_cons, List.mem_map, not_exists, not_and]
    exact ⟨new, nodup⟩
  · rcases mem_insertSched.mp hx with rfl | hx
    · rw [starts, since_self]
      exact Nat.zero_le _
    · exact due x hx

/-- Countdowns that run on from a thaw stand in the order in which they were held (R63). -/
theorem SchedOrder.thaw {now now' : Time} {l : List Sched} (h : SchedOrder true now' l) :
    SchedOrder false now (l.map fun e => { e with left := e.left.thaw now }) := by
  obtain ⟨nodup, order⟩ := h
  refine ⟨by simpa [List.map_map, Function.comp_def] using nodup, fun e he => ?_, ?_⟩
  · obtain ⟨x, _, rfl⟩ := List.mem_map.mp he
    simp [Countdown.thaw]
  · refine List.pairwise_map.mpr (List.Pairwise.imp (fun {a b} le => ?_) order)
    simpa [Countdown.thaw, Countdown.leftAt] using le

/-- Countdowns that a PAUSE holds stand in the order in which they ran (R63). -/
theorem SchedOrder.hold {now now' : Time} {l : List Sched} (h : SchedOrder false now l) :
    SchedOrder true now' (l.map fun e => { e with left := e.left.hold now }) := by
  obtain ⟨nodup, due, order⟩ := h
  exact ⟨by simpa [List.map_map, Function.comp_def] using nodup,
    List.pairwise_map.mpr (List.Pairwise.imp (fun {a b} le => le) order)⟩

/-! ## Playback that is in order -/

/-- The blocks of playback are sound: engine, counts, position, the player's state, and the master. -/
structure Playing (s : State) : Prop where
  engine : Engine (decide (s.player.state = .paused)) s
  counts : Counted s
  position : PositionLaw s
  shape : s.player.Shape
  master : s.fade.MasterOk

theorem Playing.laws {s : State} (h : Playing s) :
    (ParkLaw s ∧ SchedLaw s) ∧ (FreezeLaw s ∧ PositionLaw s ∧ PlayerLaw s) ∧ (LiveLaw s ∧ TagLaw s) := by
  obtain ⟨live, tags⟩ := h.counts.laws
  refine ⟨⟨fun c l hl => ?_, h.engine.order.1, ?_⟩, ⟨fun c f hf => ?_, h.position, ?_⟩, live, tags⟩
  · obtain ⟨level, fade⟩ := (h.engine.chans c).park l hl
    refine ⟨level, fade, fun e he eq => ?_⟩
    rw [← eq, h.engine.unparked e he] at hl
    simp at hl
  · simpa using h.engine.order.2
  · simpa using ((h.engine.chans c).fade f hf).frozen
  · have shape := h.shape
    unfold Player.Shape at shape
    unfold PlayerLaw
    split <;> simp_all [h.counts.sched_nil]

/-- The laws of playback say that it is in order. -/
theorem Sound.playing {s : State} (h : Sound s) : Playing s := by
  obtain ⟨level, fades, entries, master, masterFade, composed⟩ := h.levels
  obtain ⟨fadeCurve, schedCurve, cueCurve⟩ := h.defined
  refine ⟨⟨fun c => ⟨level c, fun l hl => ?_, fun f hf => ?_⟩, fun e he => ?_, fun e he => ?_, h.sched.1, ?_⟩,
    counted_of_laws h.live h.tags, h.position, ?_, master, masterFade⟩
  · obtain ⟨a, b, _⟩ := h.park c l hl
    exact ⟨a, b⟩
  · obtain ⟨start, target, lasts, duration⟩ := fades c f hf
    exact ⟨by simpa using h.freeze c f hf, start, target, lasts, duration, fadeCurve c f hf⟩
  · obtain ⟨target, time, left⟩ := entries e he
    exact ⟨target, time, left, schedCurve e he⟩
  · cases hp : (s.chan e.channel).park with
    | none => rfl
    | some l =>
      obtain ⟨_, _, free⟩ := h.park _ l hp
      exact absurd rfl (free e he)
  · simpa using h.sched.2
  · have player := h.player
    unfold PlayerLaw at player
    unfold Player.Shape
    split <;> simp_all

end Sys2Proof.Machine
end

section
/-! SUPPORT. The operations of the player keep playback in order: GO with its actions, the expiries, PAUSE, RESUME and
RELEASE (chapter 3). -/

namespace Sys2Proof.Machine

/-! ## The master stands apart from the channels -/

/-- The master, its fade and the last snapshot stand as before. -/
structure MasterKept (s t : State) : Prop where
  master : t.fade.master = s.fade.master
  ctx : t.fade.masterCtx = s.fade.masterCtx
  snapshot : t.fade.snapshot = s.fade.snapshot

theorem MasterKept.refl (s : State) : MasterKept s s := ⟨rfl, rfl, rfl⟩

theorem MasterKept.trans {s t u : State} (h : MasterKept s t) (k : MasterKept t u) : MasterKept s u :=
  ⟨k.master.trans h.master, k.ctx.trans h.ctx, k.snapshot.trans h.snapshot⟩

theorem MasterKept.of_fade {s t : State} (h : t.fade = s.fade) : MasterKept s t := by
  constructor <;> rw [h]

theorem MasterKept.ok {s t : State} (h : MasterKept s t) (ok : s.fade.MasterOk) : t.fade.MasterOk := by
  unfold FadeEngine.MasterOk
  rw [h.master, h.ctx]
  exact ok

theorem MasterKept.foldl {β : Type} (f : State → β → State) (h : ∀ s b, MasterKept s (f s b)) (l : List β)
    (s : State) : MasterKept s (l.foldl f s) := by
  induction l generalizing s with
  | nil => exact .refl s
  | cons b rest ih => exact (h s b).trans (ih (f s b))

theorem MasterKept.foldlPair {β γ : Type} (f : State × γ → β → State × γ) (h : ∀ a b, MasterKept a.1 (f a b).1)
    (l : List β) (a : State × γ) : MasterKept a.1 (l.foldl f a).1 := by
  induction l generalizing a with
  | nil => exact .refl a.1
  | cons b rest ih => exact (h a b).trans (ih (f a b))

theorem endNotice_master (hold : Hold) (o : Owner) (cut : Bool) (s : State) :
    MasterKept s (endNotice hold o cut s) := by
  unfold endNotice
  split
  · exact .of_fade (accountCue_fade _ _ _ _)
  · split
    · exact .refl s
    · unfold accountTag
      split
      · exact .refl s
      · dsimp only
        split <;> exact ⟨rfl, rfl, rfl⟩
  · exact .refl s

theorem setChan_master (c : Chan) (r : Channel) (s : State) : MasterKept s (s.setChan c r) := ⟨rfl, rfl, rfl⟩

theorem removeContext_master (hold : Hold) (c : Chan) (s : State) : MasterKept s (removeContext hold c s) := by
  unfold removeContext
  split
  · exact .refl s
  · exact (setChan_master c _ s).trans (endNotice_master hold _ true _)

theorem startRequest_master (hold : Hold) (q : StartReq) (s : State) : MasterKept s (startRequest hold q s).1 := by
  unfold startRequest
  split
  · exact .refl s
  · dsimp only
    split <;> exact (removeContext_master hold q.channel s).trans (setChan_master _ _ _)

theorem clearSched_master (hold : Hold) (set : Chan → Bool) (s : State) : MasterKept s (clearSched hold set s) :=
  .of_fade (clearSched_fade hold set s)

/-! ## What surrounds playback -/

/-- Playback looks at the fade engine, the player, the instant and the curves alone. -/
theorem Engine.congr {paused : Bool} {s t : State} (h : Engine paused s) (chans : t.fade.chans = s.fade.chans)
    (sched : t.player.sched = s.player.sched) (now : t.now = s.now) (curves : t.working.curves = s.working.curves) :
    Engine paused t where
  chans c := by
    have hc := h.chans c
    rw [show t.chan c = s.chan c by rw [State.chan, chans, State.chan]]
    exact ⟨hc.level, hc.park, fun f hf => (hc.fade f hf).curves curves⟩
  entries e he := by
    rw [sched] at he
    have ok := h.entries e he
    refine ⟨ok.target, ok.time, ok.left, ?_⟩
    have := ok.curve
    unfold Show.curve at this ⊢
    rwa [curves]
  unparked e he := by
    rw [sched] at he
    rw [State.chan, chans]
    exact h.unparked e he
  order := by
    rw [sched, now]
    exact h.order

theorem Playing.congr {s t : State} (h : Playing s) (fade : t.fade.chans = s.fade.chans)
    (tags : t.fade.tags = s.fade.tags) (master : t.fade.master = s.fade.master)
    (ctx : t.fade.masterCtx = s.fade.masterCtx) (player : t.player = s.player) (now : t.now = s.now)
    (curves : t.working.curves = s.working.curves) : Playing t where
  engine := by
    rw [player]
    exact h.engine.congr fade (by rw [player]) now curves
  counts := h.counts.congr (fun o => FadeEngine.holding_congr o fade) tags (by rw [player]) fun n => by rw [player]
  position := by
    unfold PositionLaw
    rw [player]
    exact h.position
  shape := by
    rw [player]
    exact h.shape
  master := by
    unfold FadeEngine.MasterOk
    rw [master, ctx]
    exact h.master

/-- What neither the fade engine, the player, the instant nor the curves sees keeps playback in order. -/
theorem Playing.of_same {s t : State} (h : Playing s) (fade : t.fade = s.fade) (player : t.player = s.player)
    (now : t.now = s.now) (curves : t.working.curves = s.working.curves) : Playing t :=
  h.congr (by rw [fade]) (by rw [fade]) (by rw [fade]) (by rw [fade]) player now curves

theorem offer_playing (d : Report) {s : State} (h : Playing s) : Playing (offer d s) := h.of_same rfl rfl rfl rfl

/-! ## GO -/

/-- A cue that can run: its number names a cue, its actions are in range and name defined curves. -/
structure Cue.Ok (w : Show) (q : Cue) : Prop where
  number : 1 ≤ q.number
  actions : ∀ a ∈ q.actions, a.inRange ∧ (w.curve a.curve).isSome

/-- Every cue of the list can run, with back_time too. -/
structure Show.CuesOk (w : Show) : Prop where
  cues : ∀ q ∈ w.cues, q.Ok w
  backTime : w.params.backTime ≤ 60000

theorem Show.CuesOk.of_working {w : Show} (h : w.CuesOk) (arms : Table (Option ArmDef) 8) :
    Show.CuesOk { w with arms := arms } := ⟨fun q hq => ⟨(h.cues q hq).number, (h.cues q hq).actions⟩, h.backTime⟩

theorem chooseCue_ok {k : GoKind} {s : State} {q : Cue} (h : s.working.CuesOk) (chosen : chooseCue k s = .ok q) :
    q.Ok s.working := by
  cases k with
  | go =>
    dsimp only [chooseCue] at chosen
    split at chosen
    · next x hx =>
      obtain rfl := Except.ok.inj chosen
      exact h.cues _ (List.mem_of_find?_eq_some hx)
    · cases chosen
  | goTo n =>
    dsimp only [chooseCue] at chosen
    split at chosen
    · cases chosen
    · split at chosen
      · next x hx =>
        obtain rfl := Except.ok.inj chosen
        exact h.cues _ (List.mem_of_find?_eq_some hx)
      · cases chosen
  | back =>
    dsimp only [chooseCue] at chosen
    split at chosen
    · next x hx =>
      obtain rfl := Except.ok.inj chosen
      have ok := h.cues x (List.mem_reverse.mp (List.mem_of_find?_eq_some hx))
      refine ⟨ok.number, fun a ha => ?_⟩
      obtain ⟨y, hy, rfl⟩ := List.mem_map.mp ha
      obtain ⟨⟨target, time, delay, curve⟩, defined⟩ := ok.actions y hy
      have := h.backTime
      exact ⟨⟨target, by dsimp only; omega, by simp, curve⟩, defined⟩
    · cases chosen

/-- A player whose state was judged from its live cue list and its follow timer is RUNNING or WAITING, as they say (R59 step 6,
R75). -/
theorem Player.judged {p : Player} (h : p.state = if p.live ≠ [] ∨ p.follow.isSome then .running else .waiting) :
    p.Shape ∧ p.state ≠ .paused ∧ p.state ≠ .stopped := by
  unfold Player.Shape
  by_cases c : p.live ≠ [] ∨ p.follow.isSome
  · rw [if_pos c] at h
    rw [h]
    exact ⟨c.imp_right Option.isSome_iff_ne_none.mp, by simp, by simp⟩
  · rw [if_neg c] at h
    rw [h]
    exact ⟨by simpa [not_or] using c, by simp, by simp⟩

/-- The middle of a GO operation of cue `n`: nothing is frozen, and the counts of cue `n` are open (R60). -/
structure GoMid (n : Nat) (s : State) : Prop where
  engine : Engine false s
  counts : Counts (· = n) noneApart noDue s
  resumeTo : s.player.resumeTo = none
  master : s.fade.MasterOk

theorem Fade.Ok.thaw {w : Show} {paused : Bool} {f : Fade} (now : Time) (h : f.Ok w paused) :
    (f.thaw now).Ok w false := by
  unfold Fade.thaw
  split
  · exact ⟨by simp, h.start, h.target, h.lasts, h.duration, h.curve⟩
  · next free => exact ⟨by simp [free], h.start, h.target, h.lasts, h.duration, h.curve⟩

@[simp] theorem Fade.thaw_owner (now : Time) (f : Fade) : (f.thaw now).owner = f.owner := by
  unfold Fade.thaw
  split <;> rfl

@[simp] theorem Fade.freeze_owner (now : Time) (f : Fade) : (f.freeze now).owner = f.owner := by
  unfold Fade.freeze
  split
  · split <;> rfl
  · rfl

/-- The number of contexts of an owner follows from which channels hold one. -/
theorem FadeEngine.holding_of_holds {f g : FadeEngine} {o : Owner}
    (h : ∀ c, (Table.at g.chans c).holds o = (Table.at f.chans c).holds o) : g.holding o = f.holding o := by
  unfold FadeEngine.holding Table.entries
  rw [List.countP_map, List.countP_map]
  congr 1
  funext c
  exact h c

theorem FadeEngine.holding_mapFades (g : Fade → Fade) (same : ∀ x, (g x).owner = x.owner) (o : Owner) (f : FadeEngine) :
    (f.mapFades g).holding o = f.holding o := by
  refine FadeEngine.holding_of_holds fun c => ?_
  rw [FadeEngine.mapFades_at]
  unfold Channel.holds
  cases h : (Table.at f.chans c).fade with
  | none => simp
  | some x => simp [same]

theorem Channel.Ok.mapFade {w : Show} {paused paused' : Bool} {r : Channel} {g : Fade → Fade} (h : r.Ok w paused)
    (ok : ∀ f : Fade, f.Ok w paused → (g f).Ok w paused') : Channel.Ok w paused' { r with fade := r.fade.map g } where
  level := h.level
  park l hl := by
    obtain ⟨level, fade⟩ := h.park l hl
    exact ⟨level, by rw [fade]; rfl⟩
  fade f hf := by
    obtain ⟨x, hx, rfl⟩ := Option.map_eq_some_iff.mp hf
    exact ok x (h.fade x hx)

theorem schedOf_map (n : Nat) (p : Player) (g : Sched → Sched) (same : ∀ e, (g e).owner = e.owner) :
    (p.sched.map g).countP (fun e => e.owner == n) = p.sched.countP fun e => e.owner == n := by
  rw [List.countP_map]
  congr 1
  funext e
  simp [Function.comp, same]

/-- A thaw request followed by the countdowns' own thaw (R9, R63, R75). -/
theorem thaw_engine {s : State} (h : Engine true s) :
    Engine false ((thawRequest s).setPlayer ((thawRequest s).player.thaw (thawRequest s).now)) where
  chans c := by
    have at_c : ((thawRequest s).setPlayer ((thawRequest s).player.thaw (thawRequest s).now)).chan c
        = { s.chan c with fade := (s.chan c).fade.map (Fade.thaw s.now) } := FadeEngine.mapFades_at _ _ c
    rw [at_c]
    exact (h.chans c).mapFade fun f => Fade.Ok.thaw s.now
  entries e he := by
    obtain ⟨x, hx, rfl⟩ := List.mem_map.mp he
    have ok := h.entries x hx
    exact ⟨ok.target, ok.time, ok.left, ok.curve⟩
  unparked e he := by
    obtain ⟨x, hx, rfl⟩ := List.mem_map.mp he
    have at_c : ((thawRequest s).setPlayer ((thawRequest s).player.thaw (thawRequest s).now)).chan x.channel
        = { s.chan x.channel with fade := (s.chan x.channel).fade.map (Fade.thaw s.now) } :=
      FadeEngine.mapFades_at _ _ _
    rw [at_c]
    exact h.unparked x hx
  order := h.order.thaw

theorem thaw_counts {cues tags : Nat → Prop} {due : Nat → Nat} {s : State} (h : Counts cues tags due s) :
    Counts cues tags due ((thawRequest s).setPlayer ((thawRequest s).player.thaw (thawRequest s).now)) :=
  h.congr (FadeEngine.holding_mapFades _ (Fade.thaw_owner s.now) · _) rfl rfl
    fun n => schedOf_map n s.player _ fun _ => rfl

theorem goThaw_mid {s : State} (n : Nat) (engine : Engine (decide (s.player.state = .paused)) s) (counts : Counted s)
    (resume : s.player.resumeTo.isSome ↔ s.player.state = .paused) (master : s.fade.MasterOk) :
    GoMid n (goThaw s) := by
  have counts := counts.mono (cues' := (· = n)) (tags' := noneApart) (fun _ h => h.elim) fun _ h => h
  unfold goThaw
  split
  · next held =>
    rw [decide_eq_true held] at engine
    exact ⟨thaw_engine engine, thaw_counts counts, rfl, master⟩
  · next running =>
    rw [decide_eq_false running] at engine
    exact ⟨engine, counts, by simpa using mt resume.mp running, master⟩

theorem goHold_within (n : Nat) : Hold.Within ⟨some n, none⟩ (· = n) noneApart :=
  ⟨fun m h => by simpa [eq_comm] using h, fun _ h => by simp at h⟩

theorem goAction_mid {n : Nat} {acc : State × Nat} {a : Action} (range : a.inRange)
    (defined : (acc.1.working.curve a.curve).isSome) (h : GoMid n acc.1) : GoMid n (goAction n acc a).1 := by
  obtain ⟨target, time, delay, _⟩ := range
  unfold goAction
  dsimp only
  split
  · exact h
  · next unparked =>
    have engine := clearSched_engine (hold := ⟨some n, none⟩) (fun c => c == a.channel) h.engine
    have counts := clearSched_counts (fun c => c == a.channel) (goHold_within n) h.counts
    have played := clearSched_played ⟨some n, none⟩ (fun c => c == a.channel) acc.1
    have runs := clearSched_runs ⟨some n, none⟩ (fun c => c == a.channel) acc.1
    have master := (clearSched_master ⟨some n, none⟩ (fun c => c == a.channel) acc.1).ok h.master
    have sched := clearSched_sched ⟨some n, none⟩ (fun c => c == a.channel) acc.1
    have chan := clearSched_chan ⟨some n, none⟩ (fun c => c == a.channel) acc.1
    have resume := runs.resumeTo.trans h.resumeTo
    rw [← played.working] at defined
    generalize clearSched ⟨some n, none⟩ (fun c => c == a.channel) acc.1 = u at *
    split
    · exact ⟨startRequest_engine ⟨target, time, defined, fun _ _ => rfl⟩ engine,
        startRequest_counts_same _ (goHold_within n) counts (.inl ⟨rfl, rfl⟩),
        (startRequest_accounted _ _ u).resumeTo.trans resume, (startRequest_master _ _ u).ok master⟩
    · refine ⟨⟨engine.chans, fun e he => ?_, fun e he => ?_, engine.order.insert (fun x hx => ?_) rfl⟩, ?_, resume, master⟩
      · rcases mem_insertSched.mp he with rfl | he
        · exact ⟨target, time, delay, defined⟩
        · exact engine.entries e he
      · rcases mem_insertSched.mp he with rfl | he
        · rw [State.setPlayer_chan, chan]
          simpa [Channel.isParked] using unparked
        · exact engine.unparked e he
      · rw [sched] at hx
        simpa using (List.mem_filter.mp hx).2
      · refine ⟨counts.live.congr fun m hm => ?_, counts.batches, counts.named⟩
        have ne : n ≠ m := fun e => hm e.symm
        rw [State.owned_eq, State.owned_eq, Player.schedOf, Player.schedOf]
        simp [(insertSched_perm _ _ _).countP_eq, ne]

theorem goActions_mid {q : Cue} {s : State} (ok : q.Ok s.working) (h : GoMid q.number s) :
    GoMid q.number (goActions q s).1 := by
  have fold : ∀ (l : List Action) (acc : State × Nat), acc.1.working = s.working →
      (∀ a ∈ l, a.inRange ∧ (s.working.curve a.curve).isSome) → GoMid q.number acc.1 →
      GoMid q.number (l.foldl (goAction q.number) acc).1 := by
    intro l
    induction l with
    | nil => exact fun acc _ _ h => h
    | cons a rest ih =>
      intro acc same ok h
      obtain ⟨range, defined⟩ := ok a (List.mem_cons_self ..)
      refine ih _ ((goAction_played q.number acc a).working.trans same) (fun x hx => ok x (List.mem_cons_of_mem a hx)) ?_
      exact goAction_mid range (by rwa [same]) h
  exact fold q.actions (s, 0) rfl ok.actions h

@[simp] theorem goSettle_fade (q : Cue) (source : Source) (skipped : Nat) (s : State) :
    (goSettle q source skipped s).fade = s.fade := by
  unfold goSettle
  dsimp only
  rw [apply_ite State.fade, offerCueDone_fade, ite_self, apply_ite State.fade, offer_fade, ite_self]
  rfl

@[simp] theorem goSettle_player (q : Cue) (source : Source) (skipped : Nat) (s : State) :
    (goSettle q source skipped s).player
      = (s.player.settleEntry q.number (s.owned q.number)).settleState s.now q := by
  unfold goSettle
  dsimp only
  rw [apply_ite State.player, offerCueDone_player, ite_self, apply_ite State.player, offer_player, ite_self]
  rfl

/-- The live cue list after step 3 of R59 counts the cue again. -/
theorem settleEntry_tally {f : Nat → Nat} {n : Nat} {p : Player} (h : Tally Live.cue Live.count (· = n) f p.live) :
    Tally Live.cue Live.count noneApart f (p.settleEntry n (f n)).live := by
  have others : Tally Live.cue Live.count (· = n) f (p.live.filter fun e => e.cue != n) := by
    refine ⟨h.nodup.sublist (List.filter_sublist.map _), fun e he => h.counted e (List.mem_of_mem_filter he), ?_⟩
    intro m hm pos
    obtain ⟨e, he, hk⟩ := h.complete m hm pos
    exact ⟨e, List.mem_filter.mpr ⟨he, by simpa [hk] using hm⟩, hk⟩
  have away : ∀ e ∈ p.live.filter (fun e => e.cue != n), e.cue ≠ n := fun e he => by
    simpa using (List.mem_filter.mp he).2
  unfold Player.settleEntry
  dsimp only
  split
  · next zero =>
    refine ⟨others.nodup, fun e he _ => others.counted e he (away e he), fun m _ pos => ?_⟩
    exact others.complete m (fun e => by subst e; omega) pos
  · next pos =>
    refine ⟨?_, fun e he _ => ?_, fun m _ posm => ?_⟩
    · rw [List.map_append, List.nodup_append]
      refine ⟨others.nodup, by simp, fun a ha b hb => ?_⟩
      obtain ⟨e, he, rfl⟩ := List.mem_map.mp ha
      have : b = n := by simpa using hb
      rw [this]
      exact away e he
    · rcases List.mem_append.mp he with he | he
      · exact others.counted e he (away e he)
      · have : e = _ := List.mem_singleton.mp he
        subst this
        exact ⟨by dsimp only; omega, rfl⟩
    · by_cases e : m = n
      · subst e
        exact ⟨_, List.mem_append_right _ (List.mem_singleton.mpr rfl), rfl⟩
      · obtain ⟨x, hx, hk⟩ := others.complete m e posm
        exact ⟨x, List.mem_append_left _ hx, hk⟩

theorem goSettle_playing {q : Cue} {source : Source} {skipped : Nat} {s : State} (number : 1 ≤ q.number)
    (h : GoMid q.number s) : Playing (goSettle q source skipped s) := by
  have played := goSettle_played q source skipped s
  obtain ⟨shape, notPaused, notStopped⟩ := Player.judged
    (p := (s.player.settleEntry q.number (s.owned q.number)).settleState s.now q) rfl
  rw [← goSettle_player q source skipped s] at shape notPaused notStopped
  refine ⟨?_, ?_, ⟨?_, ?_⟩, shape, ?_⟩
  · rw [decide_eq_false notPaused]
    exact h.engine.congr (by rw [goSettle_fade]) (by rw [goSettle_player]; rfl) played.now (by rw [played.working])
  · have same : s.owned q.number = (fun n => s.owned n + noDue n) q.number := rfl
    refine ⟨?_, ?_, ?_⟩
    · rw [goSettle_player, same]
      refine (settleEntry_tally h.counts.live).congr fun m _ => ?_
      rw [State.owned_eq, State.owned_eq, goSettle_fade, goSettle_player]
      rfl
    · rw [goSettle_fade]
      exact h.counts.batches
    · rw [goSettle_fade]
      exact h.counts.named
  · have position : (goSettle q source skipped s).player.position = q.number := by rw [goSettle_player]; rfl
    exact ⟨fun zero => by omega, fun e => absurd e notStopped⟩
  · have resume : (goSettle q source skipped s).player.resumeTo = none := by
      rw [goSettle_player]
      exact h.resumeTo
    refine ⟨fun held => ?_, fun e => absurd e notPaused⟩
    rw [resume] at held
    cases held
  · rw [goSettle_fade]
    exact h.master

/-- The GO operation needs of the player's state only that resume_to tells a pause (R59). -/
theorem goOperation_playing {q : Cue} {source : Source} {s : State} (ok : q.Ok s.working)
    (engine : Engine (decide (s.player.state = .paused)) s) (counts : Counted s)
    (resume : s.player.resumeTo.isSome ↔ s.player.state = .paused) (master : s.fade.MasterOk) :
    Playing (goOperation q source s).1 := by
  unfold goOperation
  refine goSettle_playing ok.number (goActions_mid ?_ (goThaw_mid q.number engine counts resume master))
  rwa [(goThaw_played s).working]

theorem goRequest_playing {k : GoKind} {source : Source} {s : State} (cues : s.working.CuesOk) (h : Playing s) :
    Playing (goRequest k source s).1 := by
  cases chosen : chooseCue k s with
  | error st =>
    rw [goRequest_refused k source s st chosen]
    exact h
  | ok q =>
    rw [goRequest_started k source s q chosen]
    exact goOperation_playing (chooseCue_ok cues chosen) h.engine h.counts h.position.2 h.master

/-- What a GO answers: a refusal leaves the state as it was. -/
theorem goRequest_refused_eq {k : GoKind} {source : Source} {s t : State} {st : Status}
    (h : goRequest k source s = (t, .refused st)) : t = s := by
  cases chosen : chooseCue k s with
  | error st' =>
    rw [goRequest_refused k source s st' chosen] at h
    exact (congrArg Prod.fst h).symm
  | ok q =>
    rw [goRequest_started k source s q chosen] at h
    cases h

theorem goOrListEnd_playing {source : Source} {s : State} (cues : s.working.CuesOk) (h : Playing s) :
    Playing (goOrListEnd source s) := by
  have played := goRequest_playing (k := .go) (source := source) cues h
  unfold goOrListEnd
  split
  · next e =>
    rw [e] at played
    exact played
  · next e =>
    rw [e] at played
    exact offer_playing _ played

/-! ## Expiries -/

theorem schedDue_some {s : State} {e : Sched} (h : s.schedDue = some e) :
    s.player.sched = e :: s.player.sched.tail ∧ s.player.state ≠ .paused ∧ e.left.leftAt s.now = 0 := by
  unfold State.schedDue at h
  split at h
  · next x rest hl =>
    split at h
    · next due =>
      obtain rfl := Option.some.inj h
      rw [hl]
      exact ⟨rfl, due.1, due.2⟩
    · cases h
  · cases h

/-- Playback is in order after items ended, if its engine and its counts are. -/
theorem Playing.of_runs {s t : State} (h : Playing s) (runs : s.player.Runs t.player)
    (engine : Engine (decide (s.player.state = .paused)) t) (counts : Counted t) (master : t.fade.MasterOk) :
    Playing t := by
  refine ⟨?_, counts, ⟨?_, ?_⟩, runs.shape h.shape, master⟩
  · rwa [decide_eq_decide.mpr runs.paused]
  · rw [runs.stopped, runs.position]
    exact h.position.1
  · rw [runs.paused, runs.resumeTo]
    exact h.position.2

theorem expireSched_playing {s : State} {e : Sched} (due : s.schedDue = some e) (h : Playing s) :
    Playing (expireSched e s) := by
  obtain ⟨list, running, _⟩ := schedDue_some due
  have mem : e ∈ s.player.sched := by
    rw [list]
    exact List.mem_cons_self ..
  have ok := h.engine.entries e mem
  have engine : Engine false s := by
    have := h.engine
    rwa [decide_eq_false running] at this
  have started : Engine false (s.setPlayer { s.player with sched := s.player.sched.tail }) :=
    engine.of_same_chans (Played.setPlayer _ s) (fun _ => rfl) (List.tail_sublist _)
  let single : Nat → Nat := fun m => if m = e.owner then 1 else 0
  have counts : Counts noneApart noneApart single (s.setPlayer { s.player with sched := s.player.sched.tail }) := by
    refine ⟨h.counts.live.congr fun m _ => ?_, h.counts.batches, h.counts.named⟩
    have : s.player.schedOf m = s.player.sched.tail.countP (fun x => x.owner == m) + single m := by
      rw [Player.schedOf, list]
      simp [List.countP_cons, single, eq_comm (a := e.owner)]
    rw [State.owned_eq, State.owned_eq, this]
    simp only [State.setPlayer_fade, State.setPlayer_player, Player.schedOf, noDue]
    omega
  unfold expireSched
  dsimp only
  generalize hu : s.setPlayer { s.player with sched := s.player.sched.tail } = u at started counts ⊢
  have taken : s.player.Runs u.player := by
    rw [← hu]
    exact .withSched _ _
  have unparked : (u.chan e.channel).isParked = false := by
    rw [← hu, State.setPlayer_chan, Channel.isParked, h.engine.unparked e mem]
    rfl
  have masterU : u.fade.MasterOk := by rw [← hu]; exact h.master
  have curve : (u.working.curve e.curve).isSome := by rw [← hu]; exact ok.curve
  generalize hq : (⟨e.channel, e.target, e.time, e.curve, .cue e.owner⟩ : StartReq) = q
  have result := startRequest_result .none q u
  have engine' : Engine false (startRequest .none q u).1 := by
    rw [← hq]
    exact startRequest_engine ⟨ok.target, ok.time, curve, fun _ _ => rfl⟩ started
  have counts' := startRequest_counts (due' := noDue) q (Hold.none_within _ _) counts (by
    rw [← hq]
    exact .inr fun m => by simp [single, noDue])
  have accounted := startRequest_accounted .none q u
  have master := (startRequest_master .none q u).ok masterU
  rw [show (u.chan q.channel).isParked = false by rw [← hq]; exact unparked] at result
  split
  · next v hv =>
    rw [hv] at engine' counts' accounted master
    refine h.of_runs (taken.trans (accounted.trans (accountCue_accounted _ _ _ _)).toRuns) ?_
      (accountCue_counts e.owner false (Hold.none_within _ _) counts' fun m => by simp [single, noDue])
      ((MasterKept.of_fade (accountCue_fade ..)).ok master)
    rw [decide_eq_false running]
    exact accountCue_engine _ _ engine'
  · next v r notSet hv =>
    rw [hv] at engine' counts' accounted master result
    have : r = .started := by
      dsimp only at result
      rw [if_neg (by simp)] at result
      split at result
      · exact absurd result notSet
      · exact result
    subst this
    refine h.of_runs (taken.trans accounted.toRuns) ?_ counts' master
    rwa [decide_eq_false running]

theorem followDue_running {s : State} (h : s.followDue = true) :
    s.player.follow ≠ none ∧ s.player.state ≠ .paused := by
  unfold State.followDue at h
  split at h
  · next f hf => exact ⟨by simp [hf], (of_decide_eq_true h).1⟩
  · cases h

theorem expireFollow_playing {s : State} (cues : s.working.CuesOk) (due : s.followDue = true) (h : Playing s) :
    Playing (expireFollow s) := by
  obtain ⟨follows, running⟩ := followDue_running due
  have stopped : s.player.state ≠ .stopped := fun e => by
    have := h.shape
    simp only [Player.Shape, e] at this
    exact follows this.2
  have engine : Engine (decide (s.player.state = .paused)) (s.setPlayer { s.player with follow := none }) :=
    h.engine.of_same_chans (Played.setPlayer _ s) (fun _ => rfl) (.refl _)
  have counts : Counted (s.setPlayer { s.player with follow := none }) :=
    h.counts.congr (fun _ => rfl) rfl rfl fun _ => rfl
  unfold expireFollow
  dsimp only
  split
  · next v n k hv =>
    cases chosen : chooseCue .go (s.setPlayer { s.player with follow := none }) with
    | error st =>
      rw [goRequest_refused _ _ _ st chosen] at hv
      cases hv
    | ok q =>
      rw [goRequest_started _ _ _ q chosen] at hv
      have := goOperation_playing (s := s.setPlayer { s.player with follow := none }) (source := .follow)
        (chooseCue_ok (s := s.setPlayer { s.player with follow := none }) cues chosen) engine counts h.position.2 h.master
      rwa [congrArg Prod.fst hv] at this
  · next v st hv =>
    obtain rfl := goRequest_refused_eq hv
    change Playing (State.setPlayer
      { s.player with follow := none, state := if s.player.live = [] then .waiting else s.player.state }
      (offer (.listEnd s.player.position .follow) (s.setPlayer { s.player with follow := none })))
    by_cases live : s.player.live = []
    · rw [if_pos live]
      rw [decide_eq_false running] at engine
      refine ⟨engine.congr rfl rfl rfl rfl, counts.congr (fun _ => rfl) rfl rfl fun _ => rfl, ⟨?_, ?_⟩, ⟨live, rfl⟩,
        h.master⟩
      · simpa [stopped] using h.position.1
      · simpa [running] using h.position.2
    · rw [if_neg live]
      refine ⟨engine.congr rfl rfl rfl rfl, counts.congr (fun _ => rfl) rfl rfl fun _ => rfl, h.position, ?_, h.master⟩
      have shape := h.shape
      unfold Player.Shape at shape ⊢
      dsimp only [State.setPlayer_player]
      cases hs : s.player.state <;> simp_all

/-! ## PAUSE, RESUME and RELEASE -/

theorem Fade.Ok.freeze {w : Show} {f : Fade} (now : Time) (h : f.Ok w false) : (f.freeze now).Ok w true := by
  have running : f.frozen = false := by simpa using h.frozen
  unfold Fade.freeze
  split
  · next n ho =>
    rw [running]
    exact ⟨by simp [Fade.advanced, ho], h.start, h.target, h.lasts, h.duration, h.curve⟩
  · next other =>
    exact ⟨by simpa [running] using other, h.start, h.target, h.lasts, h.duration, h.curve⟩

theorem pauseNow_playing {was : ResumeTo} {s : State} (running : s.player.state ≠ .paused)
    (stopped : s.player.state ≠ .stopped) (h : Playing s) : Playing (pauseNow was s) := by
  have engine : Engine false s := by
    have := h.engine
    rwa [decide_eq_false running] at this
  refine ⟨?_, ?_, ⟨?_, ?_⟩, trivial, h.master⟩
  · refine ⟨fun c => ?_, fun e he => ?_, fun e he => ?_, ?_⟩
    · have at_c : (pauseNow was s).chan c = { s.chan c with fade := (s.chan c).fade.map (Fade.freeze s.now) } :=
        FadeEngine.mapFades_at _ _ c
      rw [at_c]
      exact (engine.chans c).mapFade fun f => Fade.Ok.freeze s.now
    · obtain ⟨x, hx, rfl⟩ := List.mem_map.mp he
      have ok := engine.entries x hx
      exact ⟨ok.target, ok.time, (Nat.sub_le _ _).trans ok.left, ok.curve⟩
    · obtain ⟨x, hx, rfl⟩ := List.mem_map.mp he
      have at_c : (pauseNow was s).chan x.channel
          = { s.chan x.channel with fade := (s.chan x.channel).fade.map (Fade.freeze s.now) } :=
        FadeEngine.mapFades_at _ _ _
      rw [at_c]
      exact engine.unparked x hx
    · exact engine.order.hold
  · exact h.counts.congr (FadeEngine.holding_mapFades _ (Fade.freeze_owner s.now) · _) rfl rfl
      fun n => schedOf_map n s.player _ fun _ => rfl
  · have : s.player.position ≠ 0 := mt h.position.1.mp stopped
    simpa [pauseNow, freezeRequest] using this
  · simp [pauseNow]

theorem pauseRequest_playing {s : State} (h : Playing s) : Playing (pauseRequest s).1 := by
  unfold pauseRequest
  split
  · next e => exact pauseNow_playing (by simp [e]) (by simp [e]) h
  · next e => exact pauseNow_playing (by simp [e]) (by simp [e]) h
  · exact h
  · exact h

theorem resumeRequest_playing {s : State} (h : Playing s) : Playing (resumeRequest s).1 := by
  unfold resumeRequest
  split
  · next held =>
    have engine := h.engine
    rw [decide_eq_true held] at engine
    have position : s.player.position ≠ 0 := by
      have := mt h.position.1.mp
      simp_all
    obtain ⟨shape, notPaused, notStopped⟩ := Player.judged (p := (resumeRequest s).1.player) (by
      unfold resumeRequest
      rw [if_pos held]
      rfl)
    unfold resumeRequest at shape notPaused notStopped
    rw [if_pos held] at shape notPaused notStopped
    refine ⟨?_, (thaw_counts h.counts).congr (fun _ => rfl) rfl rfl fun _ => rfl, ⟨?_, ?_⟩, shape, h.master⟩
    · rw [decide_eq_false notPaused]
      exact (thaw_engine engine).congr rfl rfl rfl rfl
    · exact ⟨fun zero => absurd zero position, fun e => absurd e notStopped⟩
    · simpa [Player.thaw] using notPaused
  · exact h

/-- The live cue list empties, and nothing else of the player changes, as RELEASE takes its entries (R76). -/
theorem releaseEntries_player (s : State) : (releaseEntries s).player = { s.player with live := [] } := by
  have fold : ∀ (l : List Live) (u : State), (∀ e ∈ u.player.live, e.cue ∈ l.map (·.cue)) →
      (l.foldl (fun s e =>
        offerCueDone e.cue .cut (s.setPlayer { s.player with live := s.player.live.filter (·.cue != e.cue) })) u).player
        = { u.player with live := [] } := by
    intro l
    induction l with
    | nil =>
      intro u none
      have : u.player.live = [] := List.eq_nil_iff_forall_not_mem.mpr fun e he => by simpa using none e he
      rw [List.foldl_nil, ← this]
    | cons x rest ih =>
      intro u all
      rw [List.foldl_cons, ih]
      · rfl
      · intro e he
        obtain ⟨mem, ne⟩ := List.mem_filter.mp (show e ∈ u.player.live.filter _ from he)
        have := all e mem
        simp only [List.map_cons, List.mem_cons] at this
        exact this.resolve_left (by simpa using ne)
  exact fold s.player.live s fun e he => List.mem_map_of_mem he

@[simp] theorem releaseEntries_fade (s : State) : (releaseEntries s).fade = s.fade :=
  foldl_accountCue_fade
    (fun s (e : Live) =>
      offerCueDone e.cue .cut (s.setPlayer { s.player with live := s.player.live.filter (·.cue != e.cue) }))
    (fun _ _ => rfl) s.player.live s

/-- RELEASE's request for a channel, or none (R76 step 4). -/
theorem releaseChannel_cases (time : Nat) (acc : State × Nat) (c : Chan) :
    releaseChannel time acc c = acc ∧ ((acc.1.chan c).isParked = true ∨ (acc.1.chan c).fade = none)
      ∨ (acc.1.chan c).isParked = false
        ∧ releaseChannel time acc c = ((startRequest .none ⟨c, 0, time, 0, .release⟩ acc.1).1, acc.2 + 1) := by
  unfold releaseChannel
  dsimp only
  split
  · next parked => exact .inl ⟨rfl, .inl parked⟩
  · next free =>
    split
    · exact .inr ⟨by simpa using free, rfl⟩
    · next dark => exact .inl ⟨rfl, .inr (by simpa using fun h => dark (.inr h))⟩

/-- The middle of a RELEASE: no entry and no scheduled start is left, and the channels seen so far belong to no cue. -/
structure ReleaseMid (paused : Bool) (seen : Chan → Prop) (s : State) : Prop where
  engine : Engine paused s
  counts : Counts (fun _ => True) noneApart noDue s
  sched : s.player.sched = []
  live : s.player.live = []
  follow : s.player.follow = none
  master : s.fade.MasterOk
  released : ∀ c, seen c → ∀ f, (s.chan c).fade = some f → f.owner = .release

theorem accountCue_of_no_entry {hold : Hold} {n : Nat} {cut : Bool} {s : State} (h : s.player.live = []) :
    accountCue hold n cut s = s := by
  unfold accountCue Player.entry
  rw [h]
  rfl

/-- Where no cue is live, a start request leaves the player as it is. -/
theorem startRequest_player {hold : Hold} {q : StartReq} {s : State} (h : s.player.live = []) :
    (startRequest hold q s).1.player = s.player := by
  have removed : (removeContext hold q.channel s).player = s.player := by
    unfold removeContext
    split
    · rfl
    · unfold endNotice
      split
      · rw [accountCue_of_no_entry (by exact h)]
        rfl
      · split
        · rfl
        · exact accountTag_player _ _ _ _
      · rfl
  unfold startRequest
  split
  · rfl
  · dsimp only
    split <;> exact removed

theorem releaseChannel_mid {paused : Bool} {seen : Chan → Prop} {time : Nat} {acc : State × Nat} {c : Chan}
    (short : time ≤ 600000) (h : ReleaseMid paused seen acc.1) :
    ReleaseMid paused (fun d => seen d ∨ d = c) (releaseChannel time acc c).1 := by
  rcases releaseChannel_cases time acc c with ⟨same, empty⟩ | ⟨unparked, started⟩
  · rw [same]
    refine ⟨h.engine, h.counts, h.sched, h.live, h.follow, h.master, fun d hd f hf => ?_⟩
    rcases hd with hd | rfl
    · exact h.released d hd f hf
    · have none : (acc.1.chan d).fade = none := by
        rcases empty with parked | none
        · obtain ⟨l, hl⟩ := Option.isSome_iff_exists.mp parked
          exact ((h.engine.chans d).park l hl).2
        · exact none
      simp [none] at hf
  · rw [started]
    dsimp only
    have player := startRequest_player (hold := .none) (q := ⟨c, 0, time, 0, .release⟩) h.live
    refine ⟨startRequest_engine ⟨by simp, short, rfl, by simp⟩ h.engine,
      startRequest_counts_same _ (Hold.none_within _ _) h.counts rfl, by rw [player]; exact h.sched,
      by rw [player]; exact h.live, by rw [player]; exact h.follow, (startRequest_master _ _ _).ok h.master, fun d hd f hf => ?_⟩
    rw [startRequest_chan] at hf
    by_cases eq : c = d
    · subst eq
      rw [if_pos rfl, Channel.started, if_neg (by simp [unparked])] at hf
      split at hf
      · simp at hf
      · obtain rfl := Option.some.inj hf
        rfl
    · rw [if_neg eq] at hf
      exact h.released d (hd.resolve_right fun e => eq e.symm) f hf

theorem releaseChannels_mid {paused : Bool} {time : Nat} {acc : State × Nat} (short : time ≤ 600000)
    (h : ReleaseMid paused (fun _ => False) acc.1) :
    ReleaseMid paused (fun _ => True) (channels.foldl (releaseChannel time) acc).1 := by
  have fold : ∀ (l : List Chan) (seen : Chan → Prop) (acc : State × Nat), ReleaseMid paused seen acc.1 →
      ReleaseMid paused (fun d => seen d ∨ d ∈ l) (l.foldl (releaseChannel time) acc).1 := by
    intro l
    induction l with
    | nil => exact fun seen acc h => by simpa using h
    | cons c rest ih =>
      intro seen acc h
      have := ih _ _ (releaseChannel_mid (c := c) short h)
      simpa [or_assoc] using this
  have all := fold channels _ acc h
  have every : (fun d => False ∨ d ∈ channels) = fun _ => True := by
    funext d
    simp [channels]
  rwa [every] at all

theorem releaseNow_playing {time : Nat} {s : State} (short : time ≤ 600000) (h : Playing s) :
    Playing (releaseNow time s).1 := by
  let s1 := s.setPlayer { s.player with sched := [], follow := none }
  have player := releaseEntries_player s1
  have start : ReleaseMid (decide (s.player.state = .paused)) (fun _ => False) (releaseEntries s1) := by
    refine ⟨h.engine.of_same_chans ((Played.setPlayer _ s).trans (releaseEntries_played s1)) (fun c => ?_) ?_,
      ⟨?_, ?_, ?_⟩, by rw [player]; rfl, by rw [player], by rw [player]; rfl, ?_, fun c hc => hc.elim⟩
    · rw [State.chan, releaseEntries_fade]
      rfl
    · rw [player]
      exact List.nil_sublist _
    · rw [player]
      exact .nil fun m hm => absurd trivial hm
    · rw [releaseEntries_fade]
      exact h.counts.batches
    · rw [releaseEntries_fade]
      exact h.counts.named
    · rw [releaseEntries_fade]
      exact h.master
  have done := releaseChannels_mid (acc := (releaseEntries s1, 0)) short start
  unfold releaseNow
  dsimp only
  change Playing ((channels.foldl (releaseChannel time) (releaseEntries s1, 0)).1.setPlayer _)
  generalize (channels.foldl (releaseChannel time) (releaseEntries s1, 0)).1 = u at done ⊢
  have owned (n : Nat) : u.fade.holding (.cue n) = 0 := FadeEngine.holding_eq_zero fun c f hf => by
    rw [done.released c trivial f hf]
    simp
  refine ⟨⟨fun c => ?_, fun e he => ?_, fun e he => ?_, ?_⟩, ⟨?_, done.counts.batches, done.counts.named⟩, ⟨?_, ?_⟩, ?_,
    done.master⟩
  · obtain ⟨level, park, fade⟩ := done.engine.chans c
    refine ⟨level, park, fun f hf => ?_⟩
    obtain ⟨frozen, start, target, lasts, duration, curve⟩ := fade f hf
    rw [done.released c trivial f hf] at frozen
    exact ⟨by rw [frozen, done.released c trivial f hf]; simp, start, target, lasts, duration, curve⟩
  · rw [State.setPlayer_player, done.sched] at he
    simp at he
  · rw [State.setPlayer_player, done.sched] at he
    simp at he
  · rw [State.setPlayer_player, done.sched]
    exact .nil _ _
  · rw [State.setPlayer_player, done.live]
    refine .nil fun m _ => ?_
    rw [State.owned_eq, State.setPlayer_fade, owned, State.setPlayer_player, Player.schedOf, done.sched]
    rfl
  · simp
  · simp
  · exact ⟨done.live, done.follow⟩

end Sys2Proof.Machine
end

section
/-! SUPPORT. Direct control, the advances of a frame event, and the actions of arm slots keep playback in order (chapters 1, 4
and 5). -/

namespace Sys2Proof.Machine

/-! ## FADE -/

/-- The channel records and the player's lists are in order in the middle of an operation of direct control, with the batch
of `tag` open (R90). -/
structure FadeMid (tag : Nat) (s t : State) : Prop where
  played : Played s t
  engine : Engine (decide (s.player.state = .paused)) t
  counts : Counts noneApart (· = tag) noDue t
  runs : s.player.Runs t.player
  master : MasterKept s t
  opened : tag = 0 ∨ ∃ x ∈ t.fade.tags, x.tag = tag

theorem FadeMid.step {tag : Nat} {s t u : State} (h : FadeMid tag s t) (played : Played t u)
    (engine : Engine (decide (s.player.state = .paused)) u) (counts : Counts noneApart (· = tag) noDue u)
    (runs : t.player.Runs u.player) (master : MasterKept t u)
    (opened : (∃ x ∈ t.fade.tags, x.tag = tag) → ∃ x ∈ u.fade.tags, x.tag = tag) : FadeMid tag s u where
  played := h.played.trans played
  engine := engine
  counts := counts
  runs := h.runs.trans runs
  master := h.master.trans master
  opened := h.opened.imp_right opened

/-- The accounting keeps the batch record of a held tag (R90). -/
theorem accountTag_keeps_held {hold : Hold} {t g : Nat} {cut : Bool} {s : State} (held : hold.tag = some t)
    (h : ∃ x ∈ s.fade.tags, x.tag = t) : ∃ x ∈ (accountTag hold g cut s).fade.tags, x.tag = t := by
  obtain ⟨x, hx, ht⟩ := h
  unfold accountTag
  split
  · exact ⟨x, hx, ht⟩
  · next b hb =>
    dsimp only
    split
    · next last =>
      have ne : t ≠ g := fun e => last.2 (by rw [held, e])
      exact ⟨x, List.mem_filter.mpr ⟨hx, by simpa [ht] using ne⟩, ht⟩
    · refine ⟨_, List.mem_map.mpr ⟨x, hx, rfl⟩, ?_⟩
      split
      · next e =>
        rw [(FadeEngine.batch_some hb).2, ← ht]
        exact (by simpa using e : x.tag = g).symm
      · exact ht

theorem startRequest_keeps_held {hold : Hold} {q : StartReq} {t : Nat} {s : State} (held : hold.tag = some t)
    (h : ∃ x ∈ s.fade.tags, x.tag = t) : ∃ x ∈ (startRequest hold q s).1.fade.tags, x.tag = t := by
  have removed : ∃ x ∈ (removeContext hold q.channel s).fade.tags, x.tag = t := by
    unfold removeContext
    split
    · exact h
    · unfold endNotice
      split
      · rwa [accountCue_fade]
      · split
        · exact h
        · exact accountTag_keeps_held held h
      · exact h
  unfold startRequest
  split
  · exact h
  · dsimp only
    split <;> exact removed

/-- A start request, its result apart, is what FADE does for one channel (R87 step 3). -/
theorem fadeChannel_state (target time curve tag : Nat) (acc : State × FadeCounts) (c : Chan) :
    (fadeChannel target time curve tag acc c).1
      = (startRequest ⟨none, some tag⟩ ⟨c, target, time, curve, .direct tag⟩ acc.1).1 := by
  unfold fadeChannel
  split <;> (next e => rw [e])

theorem fadeHold_within (tag : Nat) : Hold.Within ⟨none, some tag⟩ noneApart (· = tag) :=
  ⟨fun _ h => by simp at h, fun m h => by simpa [eq_comm] using h⟩

theorem fadeChannel_mid {target time curve tag : Nat} {acc : State × FadeCounts} {c : Chan} {s : State}
    (inRange : target ≤ 4095) (short : time ≤ 600000) (defined : (s.working.curve curve).isSome)
    (h : FadeMid tag s acc.1) : FadeMid tag s (fadeChannel target time curve tag acc c).1 := by
  have ok : StartReq.Ok acc.1.working (decide (s.player.state = .paused)) ⟨c, target, time, curve, .direct tag⟩ :=
    ⟨inRange, short, by rw [h.played.working]; exact defined, by simp⟩
  rw [fadeChannel_state]
  exact h.step (startRequest_played _ _ _) (startRequest_engine ok h.engine)
    (startRequest_counts_same _ (fadeHold_within tag) h.counts ⟨.inr rfl, rfl⟩)
    (startRequest_accounted _ _ _).toRuns (startRequest_master _ _ _) (startRequest_keeps_held rfl)

theorem openBatch_counts {tag : Nat} {s : State} (h : Counted s) :
    Counts noneApart (· = tag) noDue (openBatch tag s) := by
  have weak := h.mono (cues' := noneApart) (tags' := (· = tag)) (fun _ h => h) fun _ h => h.elim
  unfold openBatch
  split
  · exact weak
  · next new =>
    obtain ⟨named, absent⟩ := not_or.mp new
    have away := FadeEngine.batch_none (by simpa using absent)
    refine ⟨weak.live, ⟨?_, fun e he ne => ?_, fun t ne pos => ?_⟩, fun x hx => ?_⟩
    · rw [State.setFade_fade, List.map_append, List.nodup_append]
      refine ⟨weak.batches.nodup, by simp, fun a ha b hb => ?_⟩
      obtain ⟨x, hx, rfl⟩ := List.mem_map.mp ha
      have : b = tag := by simpa using hb
      rw [this]
      exact away x hx
    · rcases List.mem_append.mp he with he | he
      · exact weak.batches.counted e he ne
      · rw [List.mem_singleton.mp he] at ne
        exact absurd rfl ne
    · obtain ⟨x, hx, hk⟩ := weak.batches.complete t ne pos
      exact ⟨x, List.mem_append_left _ hx, hk⟩
    · rcases List.mem_append.mp hx with hx | hx
      · exact h.named x hx
      · rw [List.mem_singleton.mp hx]
        exact named

@[simp] theorem openBatch_player (tag : Nat) (s : State) : (openBatch tag s).player = s.player := by
  unfold openBatch
  split <;> rfl

@[simp] theorem openBatch_chans (tag : Nat) (s : State) : (openBatch tag s).fade.chans = s.fade.chans := by
  unfold openBatch
  split <;> rfl

theorem openBatch_opened (tag : Nat) (s : State) : tag = 0 ∨ ∃ x ∈ (openBatch tag s).fade.tags, x.tag = tag := by
  by_cases zero : tag = 0
  · exact .inl zero
  · unfold openBatch
    split
    · next h =>
      obtain ⟨x, hx⟩ := Option.isSome_iff_exists.mp (h.resolve_left zero)
      exact .inr ⟨x, FadeEngine.batch_some hx⟩
    · exact .inr ⟨_, List.mem_append_right _ (List.mem_singleton.mpr rfl), rfl⟩

theorem openBatch_master (tag : Nat) (s : State) : MasterKept s (openBatch tag s) := by
  unfold openBatch
  split
  · exact .refl s
  · exact ⟨rfl, rfl, rfl⟩

theorem openBatch_mid {tag : Nat} {s : State} (h : Playing s) : FadeMid tag s (openBatch tag s) where
  played := openBatch_played tag s
  engine := h.engine.of_same_chans (openBatch_played tag s) (fun c => by rw [State.chan, openBatch_chans, State.chan])
    (by rw [openBatch_player])
  counts := openBatch_counts h.counts
  runs := by
    rw [openBatch_player]
    exact .refl _
  master := openBatch_master tag s
  opened := openBatch_opened tag s

/-- A channel clearing request in the middle of a FADE (R87 step 2). -/
theorem clearSched_mid {tag : Nat} {s t : State} (set : Chan → Bool) (h : FadeMid tag s t) :
    FadeMid tag s (clearSched .none set t) where
  played := h.played.trans (clearSched_played _ _ _)
  engine := clearSched_engine set h.engine
  counts := clearSched_counts set (Hold.none_within _ _) h.counts
  runs := h.runs.trans (clearSched_runs _ _ _)
  master := h.master.trans (clearSched_master _ _ _)
  opened := by
    rw [clearSched_fade]
    exact h.opened

theorem fadeChannels_mid {target time curve tag : Nat} {s : State} (inRange : target ≤ 4095) (short : time ≤ 600000)
    (defined : (s.working.curve curve).isSome) (l : List Chan) (acc : State × FadeCounts) (h : FadeMid tag s acc.1) :
    FadeMid tag s (l.foldl (fadeChannel target time curve tag) acc).1 := by
  induction l generalizing acc with
  | nil => exact h
  | cons c rest ih => exact ih _ (fadeChannel_mid inRange short defined h)

/-- The batch of a tag settled from the contexts that carry it is counted (R87 step 4, R90). -/
theorem settleBatch_counts {tag : Nat} {s : State} (h : Counts noneApart (· = tag) noDue s)
    (opened : tag = 0 ∨ ∃ x ∈ s.fade.tags, x.tag = tag) : Counted (settleBatch tag s) := by
  unfold settleBatch
  split
  · next zero =>
    subst zero
    refine ⟨h.live, ⟨h.batches.nodup, fun e he _ => h.batches.counted e he (h.named e he), fun t _ pos => ?_⟩, h.named⟩
    refine h.batches.complete t (fun e => ?_) pos
    rw [e] at pos
    simp [FadeEngine.outstanding] at pos
  · next named =>
    obtain ⟨x, hx, ht⟩ := opened.resolve_left named
    split
    · next none => exact absurd ht (FadeEngine.batch_none none x hx)
    · next b hb =>
      obtain ⟨mem, hbt⟩ := FadeEngine.batch_some hb
      have carried : s.fade.outstanding tag = s.fade.tagged tag := by
        rw [FadeEngine.outstanding, if_neg named, FadeEngine.tagged_eq]
      dsimp only
      split
      · next zero =>
        refine ⟨h.live, ⟨h.batches.nodup.sublist (List.filter_sublist.map _), fun e he _ => ?_, fun t _ pos => ?_⟩,
          fun y hy => h.named y (List.mem_of_mem_filter hy)⟩
        · obtain ⟨old, ne⟩ := List.mem_filter.mp he
          exact h.batches.counted e old (by simpa using ne)
        · have ne : t ≠ tag := fun e => by
            subst e
            have : 1 ≤ s.fade.outstanding t := pos
            omega
          obtain ⟨y, hy, hk⟩ := h.batches.complete t ne pos
          exact ⟨y, List.mem_filter.mpr ⟨hy, by simpa [hk] using ne⟩, hk⟩
      · next some_left =>
        refine ⟨h.live, ⟨?_, fun e he _ => ?_, fun t _ pos => ?_⟩, fun y hy => ?_⟩
        · exact (congrArg List.Nodup (map_key_replace (key := Batch.tag) (l := s.fade.tags)
            { b with count := s.fade.tagged tag } hbt)).mpr h.batches.nodup
        · obtain ⟨y, hy, rfl⟩ := List.mem_map.mp he
          split
          · refine ⟨by dsimp only; omega, ?_⟩
            dsimp only
            rw [hbt]
            exact carried.symm
          · next ne => exact h.batches.counted y hy (by simpa using ne)
        · by_cases e : t = tag
          · subst e
            refine ⟨_, List.mem_map.mpr ⟨b, mem, rfl⟩, ?_⟩
            simp [hbt]
          · obtain ⟨y, hy, hk⟩ := h.batches.complete t e pos
            refine ⟨_, List.mem_map.mpr ⟨y, hy, rfl⟩, ?_⟩
            rw [if_neg (by simpa [hk] using e)]
            exact hk
        · obtain ⟨z, hz, rfl⟩ := List.mem_map.mp hy
          split
          · exact h.named b mem
          · exact h.named z hz

@[simp] theorem settleBatch_player (tag : Nat) (s : State) : (settleBatch tag s).player = s.player := by
  unfold settleBatch
  split
  · rfl
  · split
    · rfl
    · dsimp only
      split <;> rfl

@[simp] theorem settleBatch_chans (tag : Nat) (s : State) : (settleBatch tag s).fade.chans = s.fade.chans := by
  unfold settleBatch
  split
  · rfl
  · split
    · rfl
    · dsimp only
      split <;> rfl

theorem settleBatch_master (tag : Nat) (s : State) : MasterKept s (settleBatch tag s) := by
  unfold settleBatch
  split
  · exact .refl s
  · split
    · exact .refl s
    · dsimp only
      split <;> exact ⟨rfl, rfl, rfl⟩

theorem fadeNow_playing {mask : ChanMask} {target time curve tag : Nat} {s : State} (inRange : target ≤ 4095)
    (short : time ≤ 600000) (defined : (s.working.curve curve).isSome) (h : Playing s) :
    Playing (fadeNow mask target time curve tag s).1 := by
  have mid := fadeChannels_mid (tag := tag) inRange short defined (s.unparkedOf mask)
    (clearSched .none (fun c => decide (c ∈ s.unparkedOf mask)) (openBatch tag s),
      ⟨0, 0, (maskChannels mask).length - (s.unparkedOf mask).length⟩) 
    (clearSched_mid (fun c => decide (c ∈ s.unparkedOf mask)) (openBatch_mid h))
  unfold fadeNow
  dsimp only
  change Playing (settleBatch tag
    ((s.unparkedOf mask).foldl (fadeChannel target time curve tag)
      (clearSched .none (fun c => decide (c ∈ s.unparkedOf mask)) (openBatch tag s),
        ⟨0, 0, (maskChannels mask).length - (s.unparkedOf mask).length⟩)).1)
  generalize ((s.unparkedOf mask).foldl (fadeChannel target time curve tag) _).1 = u at mid ⊢
  have settled := settleBatch_played tag u
  refine h.of_runs ?_ (mid.engine.congr (by rw [settleBatch_chans]) (by rw [settleBatch_player]) settled.now
    (by rw [settled.working])) (settleBatch_counts mid.counts mid.opened)
    ((mid.master.trans (settleBatch_master tag u)).ok h.master)
  rw [settleBatch_player]
  exact mid.runs

theorem fadeRequest_playing {mask : ChanMask} {target time curve tag : Nat} {s : State} (h : Playing s) :
    Playing (fadeRequest mask target time curve tag s).1 := by
  unfold fadeRequest
  split
  · exact h
  · next passes =>
    unfold fadeCheck at passes
    split at passes
    · cases passes
    · next range =>
      split at passes
      · cases passes
      · next defined => exact fadeNow_playing (by omega) (by omega) (by simpa [Option.isSome_iff_ne_none] using defined) h

/-! ## PARK, UNPARK, SET_MASTER -/

theorem parkChannel_playing {level : Nat} {c : Chan} {s : State} (inRange : level ≤ 4095)
    (free : ∀ e ∈ s.player.sched, e.channel ≠ c) (h : Playing s) : Playing (parkChannel level s c) := by
  have removed := removeContext_accounted .none c s
  have engine := removeContext_engine (hold := .none) c h.engine
  have counts := removeContext_counts c (Hold.none_within _ _) h.counts
  have master := (removeContext_master .none c s).ok h.master
  unfold parkChannel
  dsimp only
  have gone : ((removeContext .none c s).chan c).fade = none := by simp [removeContext_chan]
  have sched := removed.sched
  generalize removeContext .none c s = u at removed engine counts master gone sched ⊢
  refine h.of_runs removed.toRuns (engine.of_chans (Played.setChan _ _ u) (fun d => ?_) (.refl _) fun e he hp => ?_)
    (sameContext_counts counts fun o => rfl) ((setChan_master _ _ u).ok master)
  · rw [State.setChan_chan]
    split
    · refine ⟨inRange, fun l hl => ⟨Option.some.inj hl, gone⟩, fun f hf => ?_⟩
      rw [gone] at hf
      cases hf
    · exact engine.chans d
  · rw [State.setChan_player, sched] at he
    rw [State.setChan_chan, if_neg (free e he).symm]
    exact hp

theorem clearSched_playing {set : Chan → Bool} {s : State} (h : Playing s) : Playing (clearSched .none set s) :=
  h.of_runs (clearSched_runs _ _ _) (clearSched_engine set h.engine)
    (clearSched_counts set (Hold.none_within _ _) h.counts) ((clearSched_master _ _ _).ok h.master)

@[simp] theorem parkChannel_sched (level : Nat) (s : State) (c : Chan) :
    (parkChannel level s c).player.sched = s.player.sched := (removeContext_accounted .none c s).sched

theorem mem_maskChannels {m : ChanMask} {c : Chan} : c ∈ maskChannels m ↔ inMask m c = true := by
  simp [maskChannels, channels]

theorem parkNow_playing {mask : ChanMask} {level : Nat} {s : State} (inRange : level ≤ 4095) (h : Playing s) :
    Playing (parkNow mask level s) := by
  have fold : ∀ (l : List Chan) (u : State), (∀ c ∈ l, ∀ e ∈ u.player.sched, e.channel ≠ c) → Playing u →
      Playing (l.foldl (parkChannel level) u) := by
    intro l
    induction l with
    | nil => exact fun u _ h => h
    | cons c rest ih =>
      intro u free h
      refine ih _ (fun d hd e he => ?_) (parkChannel_playing inRange (free c (List.mem_cons_self ..)) h)
      rw [parkChannel_sched] at he
      exact free d (List.mem_cons_of_mem c hd) e he
  refine fold _ _ (fun c hc e he eq => ?_) (clearSched_playing h)
  rw [clearSched_sched] at he
  have := (List.mem_filter.mp he).2
  rw [eq, mem_maskChannels.mp hc] at this
  cases this

/-- What UNPARK leaves on a channel (R95). -/
theorem unparkNow_chan (mask : ChanMask) (s : State) (c : Chan) :
    (unparkNow mask s).chan c = if inMask mask c then { s.chan c with park := none } else s.chan c := by
  simp only [unparkNow, State.chan, State.setFade_fade, at_tabulate]

theorem unparkNow_playing {mask : ChanMask} {s : State} (h : Playing s) : Playing (unparkNow mask s) := by
  have holds (o : Owner) (c : Chan) : ((unparkNow mask s).chan c).holds o = (s.chan c).holds o := by
    rw [unparkNow_chan]
    split <;> rfl
  refine h.of_runs (.refl _) (h.engine.of_chans (unparkNow_played mask s) (fun c => ?_) (.refl _) fun e _ hp => ?_)
    (h.counts.congr (fun o => FadeEngine.holding_of_holds (holds o)) rfl rfl fun _ => rfl) h.master
  · rw [unparkNow_chan]
    split
    · exact ⟨(h.engine.chans c).level, fun l hl => (by cases hl), (h.engine.chans c).fade⟩
    · exact h.engine.chans c
  · rw [unparkNow_chan]
    split
    · rfl
    · exact hp

theorem Playing.withMaster {s : State} {f : FadeEngine} (h : Playing s) (chans : f.chans = s.fade.chans)
    (tags : f.tags = s.fade.tags) (ok : f.MasterOk) : Playing (s.setFade f) :=
  h.of_runs (.refl _) (h.engine.congr chans rfl rfl rfl)
    (h.counts.congr (fun o => FadeEngine.holding_congr o chans) tags rfl fun _ => rfl) ok

theorem masterRequest_playing {level time : Nat} {s : State} (h : Playing s) :
    Playing (masterRequest level time s).1 := by
  unfold masterRequest
  split
  · exact h
  · next range =>
    split
    · exact h.withMaster rfl rfl ⟨by dsimp only; omega, fun m hm => by cases hm⟩
    · next lasts =>
      refine h.withMaster rfl rfl ⟨h.master.1, fun m hm => ?_⟩
      obtain rfl := Option.some.inj hm
      exact ⟨h.master.1, by dsimp only; omega, by dsimp only; omega, by dsimp only; omega⟩

/-! ## The advances of a frame event -/

theorem CurveLaw.shaped {w : Show} (h : CurveLaw w) {id : Nat} {points : List Point} (hc : w.curve id = some points) :
    Shaped points := by
  apply shaped_of_shapeOk
  unfold Show.curve at hc
  split at hc
  · obtain rfl := Option.some.inj hc
    exact shapeOk_linear
  · split at hc
    · exact h.2 _ _ hc
    · cases hc

theorem Fade.Ok.advanced {w : Show} {paused : Bool} {f : Fade} (now : Time) (h : f.Ok w paused) :
    (f.advanced now).Ok w paused := ⟨h.frozen, h.start, h.target, h.lasts, h.duration, h.curve⟩

/-- The level of a context in range is in range (R17). -/
theorem Fade.Ok.levelNow_le {w : Show} {paused : Bool} {f : Fade} (curves : CurveLaw w) (h : f.Ok w paused) :
    f.levelNow w ≤ 4095 := by
  obtain ⟨points, hp⟩ := Option.isSome_iff_exists.mp h.curve
  unfold Fade.levelNow
  rw [hp, Option.getD_some]
  have bounds := (curves.shaped hp).progress_between (timeFraction_le f.elapsed f.duration)
  exact levelAt_le bounds.1 bounds.2 h.start h.target

theorem advanceChannel_playing {c : Chan} {s : State} (curves : CurveLaw s.working) (h : Playing s) :
    Playing (advanceChannel c s) := by
  have played := advanceChannel_played c s
  unfold advanceChannel at played ⊢
  split
  · exact h
  · next f hf =>
    have okF := (h.engine.chans c).fade f hf
    have unparked : (s.chan c).park = none := by
      cases hp : (s.chan c).park with
      | none => rfl
      | some l =>
        rw [((h.engine.chans c).park l hp).2] at hf
        cases hf
    have park (l : Nat) (hl : (s.chan c).park = some l) : False := by
      rw [unparked] at hl
      cases hl
    split
    · exact h
    · next running =>
      dsimp only
      split
      · next ended =>
        simp only [hf, if_neg running, if_pos ended] at played
        have accounted := endNotice_accounted .none f.owner false
          (s.setChan c { s.chan c with level := f.target, fade := none })
        change Playing (endNotice .none f.owner false (s.setChan c { s.chan c with level := f.target, fade := none }))
        refine h.of_runs accounted.toRuns (h.engine.of_chans played (fun d => ?_) ?_ fun e _ hp => ?_)
          (endContext_counts false (Hold.none_within _ _) h.counts hf rfl)
          (((setChan_master _ _ s).trans (endNotice_master _ _ _ _)).ok h.master)
        · simp only [endNotice_chan, State.setChan_chan]
          split
          · exact ⟨okF.target, fun l hl => (park l hl).elim, fun x hx => by cases hx⟩
          · exact h.engine.chans d
        · rw [accounted.sched]
          exact .refl _
        · simp only [endNotice_chan, State.setChan_chan]
          split
          · next eq => exact eq ▸ unparked
          · exact hp
      · next more =>
        simp only [hf, if_neg running, if_neg more] at played
        refine h.of_runs (.refl _) (h.engine.of_chans played (fun d => ?_) (.refl _) fun e _ hp => ?_)
          (sameContext_counts h.counts fun o => ?_) h.master
        · rw [State.setChan_chan]
          split
          · refine ⟨(okF.advanced s.now).levelNow_le curves, fun l hl => (park l hl).elim, fun x hx => ?_⟩
            obtain rfl := Option.some.inj hx
            exact okF.advanced s.now
          · exact h.engine.chans d
        · rw [State.setChan_chan]
          split
          · next eq => exact eq ▸ unparked
          · exact hp
        · rw [Channel.holds_some hf, Channel.holds_some (f := f.advanced s.now) rfl]
          rfl

theorem advanceChannels_playing {s : State} (curves : CurveLaw s.working) (h : Playing s) :
    Playing (advanceChannels s) := by
  have fold : ∀ (l : List Chan) (u : State), CurveLaw u.working → Playing u →
      Playing (l.foldl (fun s c => advanceChannel c s) u) := by
    intro l
    induction l with
    | nil => exact fun u _ h => h
    | cons c rest ih =>
      intro u curves h
      exact ih _ (by rw [(advanceChannel_played c u).working]; exact curves) (advanceChannel_playing curves h)
  exact fold channels s curves h

theorem advanceMaster_playing {s : State} (h : Playing s) : Playing (advanceMaster s) := by
  unfold advanceMaster
  split
  · exact h
  · next m hm =>
    obtain ⟨start, target, lasts, duration⟩ := h.master.2 m hm
    dsimp only
    split
    · exact h.withMaster rfl rfl ⟨target, fun m hm => by cases hm⟩
    · refine h.withMaster rfl rfl ⟨?_, fun m' hm' => ?_⟩
      · have := timeFraction_le (m.elapsed + since s.now m.lastAdvance) m.duration
        exact levelAt_le (by omega) (by omega) start target
      · obtain rfl := Option.some.inj hm'
        exact ⟨start, target, lasts, duration⟩

theorem frameAdvance_playing {s : State} (curves : CurveLaw s.working) (h : Playing s) : Playing (frameAdvance s) :=
  advanceMaster_playing (advanceChannels_playing curves h)

/-! ## Armed actions -/

/-- What playback needs of the working show: cues that can run, curves of their shape, and slots in range. -/
structure Show.Plays (w : Show) : Prop where
  cues : w.CuesOk
  curves : CurveLaw w
  arms : ArmLaw w

theorem runArmAction_playing {a : ArmAction} {s : State} (cues : s.working.CuesOk) (range : a.inRange) (h : Playing s) :
    Playing (runArmAction a s).1 := by
  cases a with
  | go => exact goRequest_playing cues h
  | goTo n => exact goRequest_playing cues h
  | back => exact goRequest_playing cues h
  | pause => exact pauseRequest_playing h
  | resume => exact resumeRequest_playing h
  | release time =>
    have bound : time ≤ 60000 := range
    have short : time ≤ 600000 := by omega
    rw [runArmAction]
    dsimp only
    exact releaseNow_playing short h
  | fade mask target time curve => exact fadeRequest_playing h
  | setMaster level time => exact masterRequest_playing h

/-- Playback is in order, and the working show has what it needs. -/
structure Runs (s : State) : Prop where
  plays : s.working.Plays
  playing : Playing s

theorem Runs.of_same {s t : State} (h : Runs s) (working : t.working = s.working) (fade : t.fade = s.fade)
    (player : t.player = s.player) (now : t.now = s.now) : Runs t :=
  ⟨working ▸ h.plays, h.playing.of_same fade player now (by rw [working])⟩

theorem Runs.of_played {s t : State} (h : Runs s) (played : Played s t) (playing : Playing t) : Runs t :=
  ⟨played.working ▸ h.plays, playing⟩

theorem Runs.foldl {β : Type} (f : State → β → State) (h : ∀ s b, Runs s → Runs (f s b)) (l : List β) (s : State)
    (hs : Runs s) : Runs (l.foldl f s) := by
  induction l generalizing s with
  | nil => exact hs
  | cons b rest ih => exact ih _ (h s b hs)

theorem onceEmptied_runs {d : ArmDef} {k : Fin 8} {s : State} (h : Runs s) : Runs (onceEmptied d k s) := by
  unfold onceEmptied
  split
  · have cues : Show.CuesOk { s.working with arms := Table.put s.working.arms k none } := h.plays.cues.of_working _
    refine ⟨⟨cues, h.plays.curves, fun j x hx => ?_⟩, h.playing.of_same rfl rfl rfl rfl⟩
    change Table.at (Table.put s.working.arms k none) j = some x at hx
    rw [Table.at_put] at hx
    split at hx
    · cases hx
    · exact h.plays.arms j x hx
  · exact h

theorem fireSlot_runs {k : Fin 8} {s : State} (h : Runs s) : Runs (fireSlot s k) := by
  cases hf : Table.at s.arm.fired k with
  | true =>
    rw [fireSlot_of_fired s k hf]
    exact h
  | false =>
    cases hs : s.slot k with
    | none =>
      rw [fireSlot_of_empty s k hs]
      exact h
    | some d =>
      rw [fireSlot_eq s k d hf hs]
      have flagged : Runs (s.setArm { s.arm with fired := Table.put s.arm.fired k true }) := h.of_same rfl rfl rfl rfl
      have emptied := onceEmptied_runs (d := d) (k := k) flagged
      have acted := emptied.of_played (runArmAction_played d.action _)
        (runArmAction_playing emptied.plays.cues (h.plays.arms k d hs).2 emptied.playing)
      exact acted.of_same rfl rfl rfl rfl

theorem fireSlots_runs {l : List (Fin 8)} {s : State} (h : Runs s) : Runs (fireSlots l s) :=
  .foldl fireSlot (fun _ _ => fireSlot_runs) l s h

theorem takeArrival_runs {n : Nat} {s : State} (h : Runs s) : Runs (takeArrival n s) := fireSlots_runs h

theorem takeCueDone_runs {s : State} (h : Runs s) : Runs (takeCueDone s) := by
  unfold takeCueDone
  split
  · exact h
  · exact takeArrival_runs (h.of_same rfl rfl rfl rfl)

theorem takeInputEvent_runs {i : Input} {active : Bool} {s : State} (h : Runs s) : Runs (takeInputEvent i active s) :=
  fireSlots_runs h

theorem takeSnapshot_runs {p : Snapshot} {s : State} (h : Runs s) : Runs (takeSnapshot p s) :=
  fireSlots_runs (h.of_same rfl rfl rfl rfl)

theorem takeAhead_runs {s : State} (h : Runs s) : Runs (takeAhead s) :=
  .foldl (fun s a => takeArrival (Arrival.cue a) s) (fun _ _ => takeArrival_runs) _ _ (h.of_same rfl rfl rfl rfl)

theorem takeAllAhead_runs {s : State} (h : Runs s) : Runs (takeAllAhead s) :=
  .foldl (fun s _ => takeAhead s) (fun _ _ => takeAhead_runs) _ s h

/-- The compositor touches neither the working show nor playback. -/
theorem compose_frame (p : Snapshot) (s : State) :
    compose p s = { s with comp := (compose p s).comp, pwm := (compose p s).pwm, chain := (compose p s).chain } := by
  unfold compose
  dsimp only
  split <;> rfl

@[simp] theorem compose_fade (p : Snapshot) (s : State) : (compose p s).fade = s.fade := by rw [compose_frame]
@[simp] theorem compose_player (p : Snapshot) (s : State) : (compose p s).player = s.player := by rw [compose_frame]
@[simp] theorem compose_working (p : Snapshot) (s : State) : (compose p s).working = s.working := by rw [compose_frame]
@[simp] theorem compose_now (p : Snapshot) (s : State) : (compose p s).now = s.now := by
  rw [compose_frame]
  rfl

theorem publish_runs {p : Snapshot} {s : State} (h : Runs s) : Runs (publish p s) := by
  have published : Runs (s.setFade { s.fade with snapshot := some p }) :=
    ⟨h.plays, h.playing.withMaster rfl rfl h.playing.master⟩
  exact takeSnapshot_runs (takeAllAhead_runs (published.of_same (compose_working _ _) (compose_fade _ _)
    (compose_player _ _) (compose_now _ _)))

theorem putAhead_runs {old : Nat} {s : State} (h : Runs s) : Runs (putAhead old s) := h.of_same rfl rfl rfl rfl

theorem goOrListEnd_runs {source : Source} {s : State} (h : Runs s) : Runs (goOrListEnd source s) :=
  h.of_played (goOrListEnd_played source s) (goOrListEnd_playing h.plays.cues h.playing)

theorem inputGo_runs {active : Bool} {s : State} (h : Runs s) : Runs (inputGo active s) := by
  unfold inputGo
  split
  · exact goOrListEnd_runs h
  · exact h

theorem deliverInput_runs {i : Input} {active playerFirst : Bool} {s : State} (h : Runs s) :
    Runs (deliverInput i active playerFirst s) := by
  unfold deliverInput
  split
  · exact h
  · exact takeInputEvent_runs h
  · split
    · exact takeInputEvent_runs (inputGo_runs h)
    · exact inputGo_runs (takeInputEvent_runs h)
  · exact (takeInputEvent_runs h).of_same rfl rfl rfl rfl

end Sys2Proof.Machine
end

section
/-! SUPPORT. The report queue keeps its size, its numbering and its marks through offers and acknowledgements (chapter 8). -/

namespace Sys2Proof.Machine

/-! ## Merging -/

/-- A merge rewrites one unsent INPUT_CHANGE record and keeps its sequence and its mark (R154). -/
theorem Record.merge_eq (now : Time) (changed levels : BitVec 4) (r : Record) :
    (r.merge now changed levels).sequence = r.sequence ∧ (r.merge now changed levels).sent = r.sent
      ∧ (r.merge now changed levels).mergeable = r.mergeable := by
  unfold Record.merge
  split
  · next h => simp [Record.mergeable, h]
  · exact ⟨rfl, rfl, rfl⟩

/-- Each record after a merge has the sequence, the mark and the kind of the one before. -/
theorem mergeInto_map {β : Type} (g : Record → β) (now : Time) (changed levels : BitVec 4)
    (same : ∀ r : Record, g (r.merge now changed levels) = g r) (l : List Record) :
    (mergeInto now changed levels l).map g = l.map g := by
  induction l with
  | nil => rfl
  | cons r rest ih =>
    unfold mergeInto
    split
    · rw [List.map_cons, List.map_cons, same]
    · rw [List.map_cons, List.map_cons, ih]

/-- The numbering looks at the sequences alone. -/
theorem sequencesFrom_congr {next : Nat} {l l' : List Record} (h : l.map (·.sequence) = l'.map (·.sequence))
    (s : sequencesFrom next l) : sequencesFrom next l' := by
  induction l generalizing l' with
  | nil =>
    obtain rfl : l' = [] := by simpa using h.symm
    trivial
  | cons r rest ih =>
    cases l' with
    | nil => simp at h
    | cons r' rest' =>
      simp only [List.map_cons, List.cons.injEq] at h
      cases rest with
      | nil =>
        obtain rfl : rest' = [] := by simpa using h.2.symm
        simpa [sequencesFrom, h.1] using s
      | cons q rest =>
        cases rest' with
        | nil => simp at h
        | cons q' rest' =>
          have hq : q.sequence = q'.sequence := by simpa using congrArg List.head? h.2
          exact ⟨by rw [← h.1, ← hq]; exact s.1, ih h.2 s.2⟩

/-! ## Numbering -/

/-- A record appended with the next sequence goes on with the numbering (R152). -/
theorem sequencesFrom_append {next : Nat} {l : List Record} {r : Record} (hr : r.sequence = next)
    (h : sequencesFrom next l) : sequencesFrom (nextSequence next) (l ++ [r]) := by
  induction l with
  | nil => exact congrArg nextSequence hr
  | cons x rest ih =>
    cases rest with
    | nil => exact ⟨(show nextSequence x.sequence = next from h).trans hr.symm, congrArg nextSequence hr⟩
    | cons y rest => exact ⟨h.1, ih h.2⟩

theorem sequencesFrom_tail {next : Nat} {l : List Record} (h : sequencesFrom next l) :
    sequencesFrom next l.tail := by
  cases l with
  | nil => trivial
  | cons x rest =>
    cases rest with
    | nil => trivial
    | cons y rest => exact h.2

theorem nextSequence_range {n : Nat} (lo : 1 ≤ n) : 1 ≤ nextSequence n ∧ nextSequence n ≤ 255 := by
  unfold nextSequence
  split <;> omega

/-! ## The operations of the unit -/

section ReportLaw

variable {u : ReportUnit} {now : Time} {d : Report}

/-- A record of this report is an unsent INPUT_CHANGE when it is appended. -/
theorem countP_mergeable_append (l : List Record) (r : Record) :
    (l ++ [r]).countP Record.mergeable = l.countP Record.mergeable + if r.mergeable then 1 else 0 := by
  simp [List.countP_append, List.countP_cons]

theorem ReportUnit.append_law (room : u.queue.length < 32)
    (single : (∃ a b c, d = .inputChange a b c) → u.queue.countP Record.mergeable = 0) (h : ReportLaw u) :
    ReportLaw (u.append now d) := by
  obtain ⟨_, lost, next, sequences, numbered, sent, merge⟩ := h
  refine ⟨?_, lost, nextSequence_range next.1, fun r hr => ?_, sequencesFrom_append rfl numbered, fun r hr => ?_, ?_⟩
  · simpa [ReportUnit.append] using room
  · rcases List.mem_append.mp hr with hr | hr
    · exact sequences r hr
    · rw [List.mem_singleton.mp hr]
      exact next
  · cases hq : u.queue with
    | nil => simp [ReportUnit.append, hq] at hr
    | cons x rest =>
      simp only [ReportUnit.append, hq, List.cons_append, List.tail_cons] at hr
      rcases List.mem_append.mp hr with hr | hr
      · exact sent r (by rw [hq]; exact hr)
      · rw [List.mem_singleton.mp hr]
  · rw [ReportUnit.append]
    dsimp only
    rw [countP_mergeable_append]
    by_cases change : ∃ a b c, d = .inputChange a b c
    · rw [single change]
      split <;> omega
    · have : Record.mergeable ⟨u.nextSeq, now, d, false⟩ = false := by
        unfold Record.mergeable
        split
        · next a b c e => exact absurd ⟨a, b, c, e⟩ change
        · rfl
      rw [this]
      simpa using merge

theorem ReportUnit.place_law (single : (∃ a b c, d = .inputChange a b c) → u.queue.countP Record.mergeable = 0)
    (h : ReportLaw u) : ReportLaw (u.place now d) := by
  unfold ReportUnit.place
  split
  · obtain ⟨size, lost, rest⟩ := h
    exact ⟨size, by dsimp only; omega, rest⟩
  · exact append_law (by omega) single h

theorem mergeInto_law {changed levels : BitVec 4} (h : ReportLaw u) :
    ReportLaw { u with queue := mergeInto now changed levels u.queue } := by
  obtain ⟨size, lost, next, sequences, numbered, sent, merge⟩ := h
  have seqs := mergeInto_map (·.sequence) now changed levels (fun r => (r.merge_eq now changed levels).1) u.queue
  have marks := mergeInto_map (·.sent) now changed levels (fun r => (r.merge_eq now changed levels).2.1) u.queue
  have kinds := mergeInto_map Record.mergeable now changed levels (fun r => (r.merge_eq now changed levels).2.2) u.queue
  have countKinds (l : List Record) : l.countP Record.mergeable = (l.map Record.mergeable).countP id := by
    rw [List.countP_map]
    rfl
  refine ⟨?_, lost, next, fun r hr => ?_, sequencesFrom_congr seqs.symm numbered, fun r hr => ?_, ?_⟩
  · have := congrArg List.length seqs
    simp only [List.length_map] at this
    dsimp only
    omega
  · have mem : r.sequence ∈ u.queue.map (·.sequence) := by
      rw [← seqs]
      exact List.mem_map_of_mem hr
    obtain ⟨x, hx, hs⟩ := List.mem_map.mp mem
    rw [← hs]
    exact sequences x hx
  · have mem : r.sent ∈ u.queue.tail.map (·.sent) := by
      rw [List.map_tail, ← marks, ← List.map_tail]
      exact List.mem_map_of_mem hr
    obtain ⟨x, hx, hs⟩ := List.mem_map.mp mem
    rw [← hs]
    exact sent x hx
  · dsimp only
    rw [countKinds, kinds, ← countKinds]
    exact merge

/-- An offer keeps the report queue sound (R151). -/
theorem ReportUnit.offer_law {mask : BitVec 9} (h : ReportLaw u) : ReportLaw (u.offer mask now d) := by
  unfold ReportUnit.offer
  split
  · exact h
  · split
    · next changed levels _ _ =>
      split
      · exact mergeInto_law h
      · next no => exact place_law (fun _ => List.countP_eq_zero.mpr (by simpa using no)) h
    · next other => exact place_law (fun ⟨a, b, c, e⟩ => absurd e (other a b c)) h

theorem Offered.law {mask : BitVec 9} {v : ReportUnit} (o : Offered mask now u v) (h : ReportLaw u) : ReportLaw v := by
  induction o with
  | refl => exact h
  | tail _ step ih =>
    obtain ⟨d, rfl⟩ := step
    exact ReportUnit.offer_law ih

theorem ReportUnit.settle_law {ack : Nat} (h : ReportLaw u) : ReportLaw (u.settle now ack) := by
  unfold ReportUnit.settle
  split
  · next acked =>
    obtain ⟨size, lost, next, sequences, numbered, sent, merge⟩ := h
    have nonempty : 1 ≤ u.queue.length := by
      unfold ReportUnit.acknowledges at acked
      split at acked
      · next hq => simp [hq]
      · cases acked
    have taken : ReportLaw { u with queue := u.queue.tail } :=
      ⟨by dsimp only; rw [List.length_tail]; omega, lost, next, fun r hr => sequences r (List.mem_of_mem_tail hr),
        sequencesFrom_tail numbered, fun r hr => sent r (List.mem_of_mem_tail hr),
        ((List.tail_sublist u.queue).countP_le).trans merge⟩
    dsimp only
    split
    · obtain ⟨size', _, rest⟩ := append_law (now := now) (d := .overflow u.lost)
        (by dsimp only; rw [List.length_tail]; omega) (fun ⟨a, b, c, e⟩ => by cases e) taken
      exact ⟨size', Nat.zero_le 255, rest⟩
    · exact taken
  · exact h

theorem ReportUnit.carry_law (h : ReportLaw u) : ReportLaw u.carry := by
  unfold ReportUnit.carry
  split
  · next r rest hq =>
    obtain ⟨size, lost, next, sequences, numbered, sent, merge⟩ := h
    rw [hq] at size sequences numbered sent merge
    refine ⟨size, lost, next, fun x hx => ?_, sequencesFrom_congr (l := r :: rest) rfl numbered, sent, ?_⟩
    · rcases List.mem_cons.mp hx with rfl | hx
      · exact sequences r (List.mem_cons_self ..)
      · exact sequences x (List.mem_cons_of_mem r hx)
    · have marked : Record.mergeable { r with sent := true } = false := by
        unfold Record.mergeable
        split <;> rfl
      rw [List.countP_cons] at merge
      rw [List.countP_cons, marked]
      simp only [Bool.false_eq_true, if_false]
      omega
  · exact h

end ReportLaw

end Sys2Proof.Machine
end

section
/-! SUPPORT. The two chain buffers and their roles (R141 to R145), the composed values (R134), and the statements about the chain
and the PWM unit settled from them. -/

namespace Sys2Proof.Machine

/-! ## The roles of the chain buffers -/

theorem Chain.withRole_eq (r : BufRole) (c : Chain) :
    c.withRole r = if c.roleOf 0 = r then some 0 else if c.roleOf 1 = r then some 1 else none := by
  have two : List.finRange 2 = [0, 1] := rfl
  unfold Chain.withRole
  rw [two]
  by_cases h0 : c.roleOf 0 = r <;> by_cases h1 : c.roleOf 1 = r <;> simp [h0, h1]

theorem Chain.count_eq (r : BufRole) (c : Chain) :
    c.count r = (if c.roleOf 0 = r then 1 else 0) + if c.roleOf 1 = r then 1 else 0 := by
  have two : Table.entries c.bufs = [Table.at c.bufs 0, Table.at c.bufs 1] := rfl
  rw [Chain.count, two]
  simp only [List.countP_cons, List.countP_nil, beq_iff_eq, Chain.roleOf]
  rw [Nat.zero_add, Nat.add_comm]
  congr

/-- The pairs of roles that the two buffers can have (R141, R143). -/
def rolesAllowed : BufRole → BufRole → Prop
  | .free, .free => True
  | .free, .shifting => True
  | .shifting, .free => True
  | .shifting, .ready => True
  | .ready, .shifting => True
  | .free, .ready => False
  | .ready, .free => False
  | .ready, .ready => False
  | .shifting, .shifting => False

theorem chainLaw_iff (c : Chain) : ChainLaw c ↔ rolesAllowed (c.roleOf 0) (c.roleOf 1) := by
  unfold ChainLaw
  rw [Chain.count_eq, Chain.count_eq]
  cases c.roleOf 0 <;> cases c.roleOf 1 <;> simp [rolesAllowed]

/-- The role of a buffer after one is replaced. -/
theorem Chain.roleOf_put (x y : Fin 2) (b : Buffer) (c : Chain) (age skips : Nat) :
    Chain.roleOf y ⟨Table.put c.bufs x b, age, skips⟩ = if x = y then b.role else c.roleOf y := by
  rw [Chain.roleOf, Table.at_put]
  split <;> rfl

theorem Chain.shifting_eq (c : Chain) : c.shifting = decide (c.roleOf 0 = .shifting ∨ c.roleOf 1 = .shifting) := by
  rw [Chain.shifting, Chain.withRole_eq]
  by_cases h0 : c.roleOf 0 = .shifting <;> by_cases h1 : c.roleOf 1 = .shifting <;> simp [h0, h1]

/-- A shifter that shifts takes no buffer (R143). -/
theorem Chain.take_of_shifting {c : Chain} {b : Fin 2} (h : c.roleOf b = .shifting) : c.take = c := by
  have : c.shifting = true := by
    rw [Chain.shifting_eq]
    fin_cases b
    · exact decide_eq_true (.inl h)
    · exact decide_eq_true (.inr h)
  rw [Chain.take, if_pos this]

/-- An idle shifter takes the one READY buffer (R143). -/
theorem Chain.take_of_ready {c : Chain} {b : Fin 2} (h : c.roleOf b = .ready)
    (other : ∀ x, x ≠ b → c.roleOf x = .free) :
    c.take = { c with bufs := Table.put c.bufs b { Table.at c.bufs b with role := .shifting }, age := 0 } := by
  have idle : c.shifting = false := by
    rw [Chain.shifting_eq]
    fin_cases b
    · simp [show c.roleOf 0 = .ready from h, other 1 (by decide)]
    · simp [show c.roleOf 1 = .ready from h, other 0 (by decide)]
  have found : c.withRole .ready = some b := by
    rw [Chain.withRole_eq]
    fin_cases b
    · simp [show c.roleOf 0 = .ready from h]
    · simp [show c.roleOf 1 = .ready from h, other 0 (by decide)]
  rw [Chain.take, if_neg (by simp [idle]), found]

/-- With no READY buffer nothing is taken. -/
theorem Chain.take_of_none {c : Chain} (h : ∀ x, c.roleOf x ≠ .ready) : c.take = c := by
  have none : c.withRole .ready = none := by
    rw [Chain.withRole_eq]
    simp [h]
  rw [Chain.take, none]
  split <;> rfl

/-- The three ways in which the buffers can stand: none in use, one shifting with the other FREE, or one shifting with the
other READY (R141, R143). -/
theorem ChainLaw.cases {c : Chain} (h : ChainLaw c) :
    (∀ x, c.roleOf x = .free) ∨ ∃ b x : Fin 2, x ≠ b ∧ (∀ y, y = b ∨ y = x) ∧ c.roleOf b = .shifting
      ∧ (c.roleOf x = .free ∨ c.roleOf x = .ready) := by
  rw [chainLaw_iff] at h
  have both (p : Fin 2 → Prop) (h0 : p 0) (h1 : p 1) (y : Fin 2) : p y := by
    fin_cases y
    · exact h0
    · exact h1
  cases h0 : c.roleOf 0 <;> cases h1 : c.roleOf 1 <;> rw [h0, h1] at h
  case free.free => exact .inl (both _ h0 h1)
  case shifting.free => exact .inr ⟨0, 1, by decide, by decide, h0, .inl h1⟩
  case free.shifting => exact .inr ⟨1, 0, by decide, by decide, h1, .inl h0⟩
  case shifting.ready => exact .inr ⟨0, 1, by decide, by decide, h0, .inr h1⟩
  case ready.shifting => exact .inr ⟨1, 0, by decide, by decide, h1, .inr h0⟩
  all_goals exact h.elim

/-- One buffer shifts and the other is FREE or READY: the law holds. -/
theorem chainLaw_of_shifting {c : Chain} {b x : Fin 2} (ne : x ≠ b) (h : c.roleOf b = .shifting)
    (other : c.roleOf x = .free ∨ c.roleOf x = .ready) : ChainLaw c := by
  rw [chainLaw_iff]
  fin_cases b <;> fin_cases x
  · exact absurd rfl ne
  · rcases other with o | o <;> simp_all [rolesAllowed]
  · rcases other with o | o <;> simp_all [rolesAllowed]
  · exact absurd rfl ne

theorem chainLaw_of_free {c : Chain} (h : ∀ x, c.roleOf x = .free) : ChainLaw c := by
  rw [chainLaw_iff, h, h]
  trivial

/-! ## Writing and finishing -/

section Write

variable {n clock : Nat} {values : List Nat} {c : Chain}

/-- A frame is written over the READY buffer, counting a skip (R147). -/
theorem Chain.write_over {b x : Fin 2} (hb : c.roleOf b = .shifting) (hx : c.roleOf x = .ready)
    (all : ∀ y, y = b ∨ y = x) :
    c.write n clock values
      = { c with bufs := Table.put c.bufs x ⟨.ready, n, clock, values⟩, skips := min 65535 (c.skips + 1) } := by
  have found : c.withRole .ready = some x := by
    rw [Chain.withRole_eq]
    fin_cases x
    · simp [show c.roleOf 0 = .ready from hx]
    · have : c.roleOf 0 = .shifting := by
        rcases all 0 with rfl | e
        · exact hb
        · exact absurd e (by decide)
      simp [this, show c.roleOf 1 = .ready from hx]
  rw [Chain.write, found]

/-- Beside a shifting buffer, a frame is written into the FREE one (R142). -/
theorem Chain.write_beside {b x : Fin 2} (hb : c.roleOf b = .shifting) (hx : c.roleOf x = .free)
    (all : ∀ y, y = b ∨ y = x) :
    c.write n clock values = { c with bufs := Table.put c.bufs x ⟨.ready, n, clock, values⟩ } := by
  have role (y : Fin 2) : c.roleOf y = .shifting ∨ c.roleOf y = .free := by
    rcases all y with rfl | rfl
    · exact .inl hb
    · exact .inr hx
  have none : c.withRole .ready = none := by
    rw [Chain.withRole_eq]
    rcases role 0 with h0 | h0 <;> rcases role 1 with h1 | h1 <;> simp [h0, h1]
  have found : c.withRole .free = some x := by
    rw [Chain.withRole_eq]
    fin_cases x
    · simp [show c.roleOf 0 = .free from hx]
    · have : c.roleOf 0 = .shifting := by
        rcases all 0 with rfl | e
        · exact hb
        · exact absurd e (by decide)
      simp [this, show c.roleOf 1 = .free from hx]
  rw [Chain.write, none]
  dsimp only
  rw [found]

/-- With both buffers FREE, a frame is written into the lower one (R142). -/
theorem Chain.write_free (h : ∀ x, c.roleOf x = .free) :
    c.write n clock values = { c with bufs := Table.put c.bufs 0 ⟨.ready, n, clock, values⟩ } := by
  have none : c.withRole .ready = none := by
    rw [Chain.withRole_eq]
    simp [h]
  have found : c.withRole .free = some 0 := by
    rw [Chain.withRole_eq]
    simp [h]
  rw [Chain.write, none]
  dsimp only
  rw [found]

theorem Chain.write_take_over {b x : Fin 2} (ne : x ≠ b) (hb : c.roleOf b = .shifting) (hx : c.roleOf x = .ready)
    (all : ∀ y, y = b ∨ y = x) :
    (c.write n clock values).take
      = { c with bufs := Table.put c.bufs x ⟨.ready, n, clock, values⟩, skips := min 65535 (c.skips + 1) } := by
  rw [Chain.write_over hb hx all]
  exact Chain.take_of_shifting (b := b) (by rw [Chain.roleOf_put, if_neg ne]; exact hb)

theorem Chain.write_take_beside {b x : Fin 2} (ne : x ≠ b) (hb : c.roleOf b = .shifting) (hx : c.roleOf x = .free)
    (all : ∀ y, y = b ∨ y = x) :
    (c.write n clock values).take = { c with bufs := Table.put c.bufs x ⟨.ready, n, clock, values⟩ } := by
  rw [Chain.write_beside hb hx all]
  exact Chain.take_of_shifting (b := b) (by rw [Chain.roleOf_put, if_neg ne]; exact hb)

theorem Chain.write_take_free (h : ∀ x, c.roleOf x = .free) :
    (c.write n clock values).take
      = { c with bufs := Table.put c.bufs 0 ⟨.shifting, n, clock, values⟩, age := 0 } := by
  rw [Chain.write_free h]
  rw [Chain.take_of_ready (b := 0) (by rw [Chain.roleOf_put, if_pos rfl])
    (fun x ne => by rw [Chain.roleOf_put, if_neg ne.symm]; exact h x)]
  simp [Table.put, Table.at]

theorem Chain.write_take_law (h : ChainLaw c) : ChainLaw (c.write n clock values).take := by
  rcases h.cases with free | ⟨b, x, ne, all, hb, hx | hx⟩
  · rw [Chain.write_take_free free]
    refine chainLaw_of_shifting (b := 0) (x := 1) (by decide) (by rw [Chain.roleOf_put, if_pos rfl]) (.inl ?_)
    rw [Chain.roleOf_put, if_neg (by decide)]
    exact free 1
  · rw [Chain.write_take_beside ne hb hx all]
    refine chainLaw_of_shifting ne (by rw [Chain.roleOf_put, if_neg ne]; exact hb) (.inr ?_)
    rw [Chain.roleOf_put, if_pos rfl]
  · rw [Chain.write_take_over ne hb hx all]
    refine chainLaw_of_shifting ne (by rw [Chain.roleOf_put, if_neg ne]; exact hb) (.inr ?_)
    rw [Chain.roleOf_put, if_pos rfl]

theorem Chain.write_take_skips (h : c.skips ≤ 65535) (law : ChainLaw c) :
    (c.write n clock values).take.skips ≤ 65535 := by
  rcases law.cases with free | ⟨b, x, ne, all, hb, hx | hx⟩
  · rwa [Chain.write_take_free free]
  · rwa [Chain.write_take_beside ne hb hx all]
  · rw [Chain.write_take_over ne hb hx all]
    exact Nat.min_le_left _ _

end Write

section Finish

variable {c : Chain} {b x : Fin 2}

theorem Chain.withRole_shifting (hb : c.roleOf b = .shifting) (other : ∀ y, y ≠ b → c.roleOf y ≠ .shifting) :
    c.withRole .shifting = some b := by
  rw [Chain.withRole_eq]
  fin_cases b
  · simp [show c.roleOf 0 = .shifting from hb]
  · simp [show c.roleOf 1 = .shifting from hb, other 0 (by decide)]

/-- The end of a shift frees its buffer and begins the next one if it is READY (R144). -/
theorem Chain.finish_eq (ne : x ≠ b) (all : ∀ y, y = b ∨ y = x) (hb : c.roleOf b = .shifting)
    (hx : c.roleOf x = .free ∨ c.roleOf x = .ready) :
    c.finish = { c with
      bufs := Table.put (Table.put c.bufs b { Table.at c.bufs b with role := .free }) x
        (if (Table.at c.bufs x).role = .ready then { Table.at c.bufs x with role := .shifting } else Table.at c.bufs x)
      age := 0 } := by
  have found := Chain.withRole_shifting hb fun y hy => by
    rcases (all y).resolve_left hy with rfl
    rcases hx with e | e <;> simp [e]
  have at_x : Table.at (Table.put c.bufs b { Table.at c.bufs b with role := .free }) x = Table.at c.bufs x :=
    Table.at_put_ne _ _ ne.symm
  rw [Chain.finish, found]
  dsimp only
  rcases hx with free | ready
  · rw [Chain.take_of_none (fun y => by
      rw [Chain.roleOf_put]
      split
      · simp
      · next hy =>
        rcases (all y).resolve_left (fun e => hy e.symm) with rfl
        simp [free])]
    rw [if_neg (by rw [show (Table.at c.bufs x).role = .free from free]; simp)]
    have put_x := Table.put_at_self (Table.put c.bufs b { Table.at c.bufs b with role := .free }) x
    rw [at_x] at put_x
    rw [put_x]
  · rw [Chain.take_of_ready (b := x) (by rw [Chain.roleOf_put, if_neg ne.symm]; exact ready) (fun y hy => by
      rcases (all y).resolve_right hy with rfl
      rw [Chain.roleOf_put, if_pos rfl])]
    rw [if_pos (show (Table.at c.bufs x).role = .ready from ready)]
    dsimp only
    rw [at_x]

theorem Chain.finish_law (h : ChainLaw c) : ChainLaw c.finish := by
  rcases h.cases with free | ⟨b, x, ne, all, hb, hx⟩
  · have none : c.withRole .shifting = none := by
      rw [Chain.withRole_eq]
      simp [free]
    rw [Chain.finish, none]
    exact h
  · rw [Chain.finish_eq ne all hb hx]
    rcases hx with free | ready
    · refine chainLaw_of_free fun y => ?_
      rw [if_neg (by rw [show (Table.at c.bufs x).role = .free from free]; simp)]
      rw [Chain.roleOf, Table.at_put, Table.at_put]
      split
      · exact free
      · next hy =>
        rcases (all y).resolve_right (fun e => hy e.symm) with rfl
        simp
    · refine chainLaw_of_shifting (b := x) (x := b) ne.symm ?_ (.inl ?_)
      · rw [if_pos (show (Table.at c.bufs x).role = .ready from ready), Chain.roleOf, Table.at_put_self]
      · rw [Chain.roleOf, Table.at_put_ne _ _ ne, Table.at_put_self]

theorem Chain.finish_skips (c : Chain) : c.finish.skips = c.skips := by
  unfold Chain.finish
  split
  · unfold Chain.take
    split
    · rfl
    · split <;> rfl
  · rfl

end Finish

/-! ## The composed values -/

theorem Law.apply_le {law : Law} {threshold v : Nat} (h : v ≤ 4095) : law.apply threshold v ≤ 4095 := by
  cases law with
  | linear => exact h
  | square => exact Nat.div_le_of_le_mul (Nat.mul_le_mul h h)
  | switch =>
    simp only [Law.apply]
    split <;> omega

/-- A composed value lies in 0 to 4095 (R134). -/
theorem composeOutput_le {p : Snapshot} {black : Bool} {o : Output} (levels : ∀ c, Table.at p.levels c ≤ 4095)
    (master : p.master ≤ 1000) (least : o.min ≤ 4095) : composeOutput p black o ≤ 4095 := by
  unfold composeOutput
  split
  · exact Nat.zero_le _
  · next c _ =>
    have scaled : (if Table.at p.parked c then Table.at p.levels c else Table.at p.levels c * p.master / 1000) ≤ 4095 := by
      split
      · exact levels c
      · have := Nat.mul_le_mul (levels c) master
        omega
    dsimp only
    generalize (if Table.at p.parked c then Table.at p.levels c else Table.at p.levels c * p.master / 1000) = v at scaled ⊢
    split
    · exact Nat.zero_le _
    · split
      · exact least
      · exact Law.apply_le scaled

theorem compose_composed (p : Snapshot) (s : State) :
    (compose p s).comp = { s.comp with
      composed := (tabulate fun o =>
        composeOutput p (s.comp.hostBlackout || s.comp.lineBlackout) (Table.at s.working.patch o)) } := by
  unfold compose
  dsimp only
  split <;> rfl

/-- What the compositor hands to the chain (R135, R142, R143). -/
theorem compose_chain (p : Snapshot) (s : State) :
    (compose p s).chain = if s.working.params.chainSlots = 0 then s.chain
      else (s.chain.write s.working.params.chainSlots s.working.params.chainClock
        (slotValues s.working.params.chainSlots (compose p s).comp.composed)).take := by
  rw [compose_composed]
  unfold compose
  by_cases h : s.working.params.chainSlots = 0
  · rw [if_pos h]
    exact (congrArg State.chain (if_pos h)).trans rfl
  · rw [if_neg h]
    exact (congrArg State.chain (if_neg h)).trans rfl

theorem compose_pwm (p : Snapshot) (s : State) :
    (compose p s).pwm = { s.pwm with
      waiting := (tabulate fun k => some (Table.at (compose p s).comp.composed (localOutput k))) } := by
  rw [compose_composed]
  unfold compose
  dsimp only
  split <;> rfl

theorem slotValues_eq {n : Nat} (composed : Table Nat 40) (h : n ≤ 32) :
    slotValues n composed = (List.range n).map fun k => composed[8 + k]?.getD 0 := by
  refine List.ext_getElem ?_ fun k hk _ => ?_
  · simp [slotValues]
    omega
  · have bound : k < n := by
      simp [slotValues] at hk
      omega
    have inside : 8 + k < 40 := by omega
    simp [slotValues, inside]

/-! ## The frame event -/

theorem exec_frameEvent {s : State} (run : s.phase = .running) (due : s.clock.frameTimer = some 0) :
    exec .frameEvent s = .next (frameEvent s) := by
  have hrun : s.runs = true := decide_eq_true run
  have hdue : s.frameDue = true := by simp [State.frameDue, due]
  change Host.Outcome.next (onlyIf (s.runs && s.frameDue) frameEvent s) = _
  rw [hrun, hdue]
  rfl

/-- The snapshot of a frame event. -/
def State.published (s : State) : Snapshot :=
  snapshotOf s.fade.chans s.now (frameAdvance (startFrameTimer s)).fade

/-- A frame event composes its snapshot with the show and the outputs as they stood before it; what follows is the work
of the arm monitor. -/
theorem frameEvent_composes (s : State) : ∃ u : State, Acted (startFrameTimer s) u
    ∧ u.working = s.working ∧ Acted (compose s.published u) (frameEvent s) := by
  have advanced := frameAdvance_played (startFrameTimer s)
  unfold frameEvent publish State.published
  dsimp only
  generalize frameAdvance (startFrameTimer s) = t at advanced ⊢
  rw [show (putAhead s.arm.inbox.length t).now = s.now from advanced.now]
  exact ⟨_, advanced.acted.trans ((putAhead_acted _ _).trans (Acted.setFade _ _)), advanced.working,
    (takeAllAhead_acted _).trans (takeSnapshot_acted _ _)⟩

/-- The values, the chain and the duties after a frame event. -/
theorem frameEvent_outputs (s : State) :
    (frameEvent s).comp = { s.comp with
        composed := (tabulate fun o =>
          composeOutput s.published (s.comp.hostBlackout || s.comp.lineBlackout) (Table.at s.working.patch o)) }
      ∧ (frameEvent s).chain = (if s.working.params.chainSlots = 0 then s.chain
        else (s.chain.write s.working.params.chainSlots s.working.params.chainClock
          (slotValues s.working.params.chainSlots (frameEvent s).comp.composed)).take)
      ∧ (frameEvent s).pwm = { s.pwm with
        waiting := (tabulate fun k => some (Table.at (frameEvent s).comp.composed (localOutput k))) } := by
  obtain ⟨u, before, working, after⟩ := frameEvent_composes s
  have comp : u.comp = s.comp := before.comp
  have chain : u.chain = s.chain := before.chain
  have pwm : u.pwm = s.pwm := before.pwm
  rw [after.chain, after.pwm, after.comp, compose_chain, compose_pwm, compose_composed, working, comp, chain, pwm]
  exact ⟨rfl, rfl, rfl⟩

/-- Settles O46, by the three ways in which the buffers can stand. -/
theorem frameEventFeedsTheChain : Obligations.FrameEventFeedsTheChain := by
  intro s run due law
  obtain ⟨_, chain, _⟩ := frameEvent_outputs s
  refine ⟨_, exec_frameEvent run due, fun none => by rw [chain, if_pos none], ?_⟩
  rintro n rfl least most
  rw [if_neg (by omega), slotValues_eq _ most] at chain
  rw [chain]
  dsimp only
  rcases law.cases with free | ⟨b, x, ne, all, hb, hx⟩
  · refine ⟨fun y hy => ?_, fun y hy => ?_, fun _ => Chain.write_take_free free⟩
    · cases hy.symm.trans (free y)
    · cases hy.symm.trans (free y)
  · have busy : ¬ ∀ y : Fin 2, (Table.at s.chain.bufs y).role = .free := fun h => by cases hb.symm.trans (h b)
    refine ⟨fun y hy => ?_, fun y hy z nz hz => ?_, fun h => absurd h busy⟩
    · rcases all y with rfl | rfl
      · cases hy.symm.trans hb
      · exact Chain.write_take_over ne hb hy all
    · rcases all z with rfl | rfl
      · cases hz.symm.trans hb
      · exact Chain.write_take_beside ne hb hz all

/-! ## The end of a period and of a shift -/

theorem exec_pwmPeriodBoundary {s : State} {p : PwmTimer} (run : s.phase = .running) (timer : s.pwm.timer = some p) :
    exec .pwmPeriodBoundary s = .next (if p.left = 0 then pwmBoundary s else s) := by
  have hrun : s.runs = true := decide_eq_true run
  have hdue : s.pwmDue = decide (p.left = 0) := by
    rw [State.pwmDue, timer]
    exact Bool.beq_eq_decide_eq _ _
  change Host.Outcome.next (onlyIf (s.runs && s.pwmDue) pwmBoundary s) = _
  rw [hrun, hdue]
  simp [onlyIf]

theorem exec_chainShiftEnd {s : State} (run : s.phase = .running) :
    exec .chainShiftEnd s = .next (if s.chain.shiftDone then s.setChain s.chain.finish else s) := by
  have hrun : s.runs = true := decide_eq_true run
  change Host.Outcome.next (onlyIf (s.runs && s.chain.shiftDone) (fun s => s.setChain s.chain.finish) s) = _
  rw [hrun]
  rfl

section Shift

variable {c : Chain} {b : Fin 2}

theorem ChainLaw.withRole_shifting (law : ChainLaw c) (hb : (Table.at c.bufs b).role = .shifting) :
    c.withRole .shifting = some b := by
  rcases law.cases with free | ⟨y, x, ne, all, hy, hx⟩
  · cases hb.symm.trans (free b)
  · have same : b = y := by
      rcases all b with rfl | rfl
      · rfl
      · rcases hx with e | e <;> cases hb.symm.trans e
    subst same
    refine Chain.withRole_shifting hb fun z hz => ?_
    rcases (all z).resolve_left hz with rfl
    rcases hx with e | e <;> rw [e] <;> simp

theorem ChainLaw.other (law : ChainLaw c) {x : Fin 2} (ne : b ≠ x) (hb : (Table.at c.bufs b).role = .shifting) :
    (c.roleOf x = .free ∨ c.roleOf x = .ready) ∧ ∀ y, y = b ∨ y = x := by
  rcases law.cases with free | ⟨y, z, _, all, hy, hz⟩
  · cases hb.symm.trans (free b)
  · have same : b = y := by
      rcases all b with rfl | rfl
      · rfl
      · rcases hz with e | e <;> cases hb.symm.trans e
    subst same
    have other : x = z := (all x).resolve_left ne.symm
    subst other
    exact ⟨hz, all⟩

/-- The bits of a shift stand in words of 16, from the highest slot down (R143). -/
theorem Buffer.bits_at (values : List Nat) (i j : Nat) (v : Nat) (hj : j < 16) (hv : values[i]? = some v) :
    (values.flatMap fun v => List.replicate 4 false ++ (List.range 12).map fun k => v.testBit (11 - k))[16 * i + j]?
      = some (decide (4 ≤ j) && v.testBit (15 - j)) := by
  induction values generalizing i with
  | nil => cases hv
  | cons w rest ih =>
    rw [List.flatMap_cons]
    cases i with
    | zero =>
      obtain rfl : w = v := by simpa using hv
      rw [List.getElem?_append_left (by simp; omega)]
      by_cases low : j < 4
      · rw [List.getElem?_append_left (by simpa using low), List.getElem?_replicate, if_pos (by omega)]
        simp [low]
      · rw [List.getElem?_append_right (by simp; omega)]
        have inside : j - 4 < 12 := by omega
        have place : 11 - (j - 4) = 15 - j := by omega
        have past : 4 ≤ j := by omega
        simp [inside, place, past]
    | succ i =>
      rw [List.getElem?_append_right (by simp; omega)]
      have place : 16 * (i + 1) + j - (List.replicate 4 false ++ (List.range 12).map fun k => w.testBit (11 - k)).length
          = 16 * i + j := by
        simp
        omega
      rw [place]
      exact ih i (by simpa using hv)

end Shift

/-! ## The pins -/

section Pins

variable {s : State}

theorem localPin_of_timer {k : Fin 8} {p : PwmTimer} (timer : s.pwm.timer = some p) :
    s.localPin k = decide (4095 ≤ Table.at s.pwm.applied k
      ∨ (p.period - p.left) * 4095 < Table.at s.pwm.applied k * p.period) := by
  unfold State.localPin
  rw [timer]

theorem chainPins_of_shifting {b : Fin 2} (shifting : s.chain.withRole .shifting = some b) :
    let buf := Table.at s.chain.bufs b
    let half := 2 * (s.chain.age * buf.clock) / 1000000
    s.cdat = (buf.bits.drop (half / 2)).headD false
      ∧ s.cclk = (decide (half < 32 * buf.slots) && (half % 2 == 1)) ∧ s.clat = (half + 1 == 32 * buf.slots) := by
  have progress : s.chain.progress = some (Table.at s.chain.bufs b,
      2 * (s.chain.age * (Table.at s.chain.bufs b).clock) / 1000000) := by
    rw [Chain.progress, shifting]
    rfl
  unfold State.cdat State.cclk State.clat
  rw [progress]
  exact ⟨rfl, rfl, rfl⟩

theorem chainPins_of_idle (idle : ∀ b, s.chain.roleOf b ≠ .shifting) :
    s.cdat = false ∧ s.cclk = false ∧ s.clat = false := by
  have progress : s.chain.progress = none := by
    have none : s.chain.withRole .shifting = none := by
      rw [Chain.withRole_eq]
      simp [idle]
    rw [Chain.progress, none]
    rfl
  unfold State.cdat State.cclk State.clat
  rw [progress]
  exact ⟨rfl, rfl, rfl⟩

/-- The bit that CDAT carries in the word of a slot (R143). -/
theorem Buffer.bits_head (buf : Buffer) {bit v : Nat} (complete : buf.values.length = buf.slots)
    (within : bit < 16 * buf.slots) (word : buf.values[buf.slots - 1 - bit / 16]? = some v) :
    (buf.bits.drop bit).headD false = (decide (4 ≤ bit % 16) && v.testBit (15 - bit % 16)) := by
  have reversed : buf.values.reverse[bit / 16]? = some v := by
    rw [List.getElem?_reverse (by omega), complete]
    exact word
  have found := Buffer.bits_at buf.values.reverse (bit / 16) (bit % 16) v (Nat.mod_lt _ (by decide)) reversed
  rw [Nat.div_add_mod] at found
  rw [List.headD_eq_head?_getD, List.head?_drop]
  exact congrArg (Option.getD · false) found

end Pins

theorem periodEnds (s : State) (p : PwmTimer) (run : s.phase = .running) (timer : s.pwm.timer = some p) :
    (p.left = 0 → ∃ t, exec .pwmPeriodBoundary s = .next t
      ∧ (∀ k : Fin 8, Table.at t.pwm.waiting k = none
          ∧ Table.at t.pwm.applied k = (Table.at s.pwm.waiting k).getD (Table.at s.pwm.applied k))
      ∧ t.pwm.timer = some ⟨1000000 / s.working.params.pwmFrequency, 1000000 / s.working.params.pwmFrequency⟩
      ∧ t = { s with pwm := t.pwm })
    ∧ (p.left ≠ 0 → exec .pwmPeriodBoundary s = .next s) := by
  rw [exec_pwmPeriodBoundary run timer]
  refine ⟨fun due => ⟨pwmBoundary s, by rw [if_pos due], fun k => ⟨?_, ?_⟩, rfl, rfl⟩, fun early => by rw [if_neg early]⟩
  · exact Table.at_replicate none k
  · change Table.at (tabulate _) k = _
    rw [at_tabulate]
    cases Table.at s.pwm.waiting k <;> rfl

theorem shiftEnds {s : State} {b x : Fin 2} (run : s.phase = .running) (law : ChainLaw s.chain) (ne : b ≠ x)
    (hb : (Table.at s.chain.bufs b).role = .shifting) :
    (16 * (Table.at s.chain.bufs b).slots * 1000000 ≤ s.chain.age * (Table.at s.chain.bufs b).clock →
      exec .chainShiftEnd s = .next { s with chain := { s.chain with
        bufs := Table.put (Table.put s.chain.bufs b { Table.at s.chain.bufs b with role := .free }) x
          (if (Table.at s.chain.bufs x).role = .ready then { Table.at s.chain.bufs x with role := .shifting }
            else Table.at s.chain.bufs x)
        age := 0 } })
    ∧ (s.chain.age * (Table.at s.chain.bufs b).clock < 16 * (Table.at s.chain.bufs b).slots * 1000000 →
      exec .chainShiftEnd s = .next s) := by
  have done : s.chain.shiftDone
      = decide (16 * (Table.at s.chain.bufs b).slots * 1000000 ≤ s.chain.age * (Table.at s.chain.bufs b).clock) := by
    rw [Chain.shiftDone, law.withRole_shifting hb]
  obtain ⟨role, all⟩ := law.other ne hb
  rw [exec_chainShiftEnd run, done]
  refine ⟨fun late => ?_, fun early => ?_⟩
  · rw [decide_eq_true late, if_pos rfl, Chain.finish_eq ne.symm all hb role]
    rfl
  · rw [decide_eq_false (by omega), if_neg (by simp)]

/-- Settles O48: the boundary and the shift's end by the rows, the pins from the bits of the shift. -/
theorem periodsAndShiftsEnd : Obligations.PeriodsAndShiftsEnd := by
  refine ⟨⟨periodEnds, fun s k p timer left => ?_⟩, fun s b x run law ne hb => shiftEnds run law ne hb,
    fun s b law hb => ?_, fun s idle => chainPins_of_idle idle⟩
  · dsimp only
    rw [localPin_of_timer timer]
    generalize Table.at s.pwm.applied k = duty
    refine ⟨?_, ?_, fun inside => ?_⟩
    · rintro rfl
      simp
    · rintro rfl
      simp
    · rw [decide_eq_true_iff, Nat.mul_comm (p.period - p.left)]
      exact ⟨fun h => h.resolve_left (by omega), .inr⟩
  · obtain ⟨cdat, cclk, clat⟩ := chainPins_of_shifting (law.withRole_shifting hb)
    dsimp only
    intro complete within
    refine ⟨fun v word => ?_, ?_, ?_⟩
    · rw [cdat]
      exact Buffer.bits_head _ complete within word
    · rw [cclk, decide_eq_true (by omega), Bool.true_and]
      exact Bool.beq_eq_decide_eq _ _
    · rw [clat, Bool.eq_iff_iff]
      simp only [beq_iff_eq, decide_eq_true_iff]
      omega

end Sys2Proof.Machine
end

section
/-! SUPPORT. A running part as a whole: the laws of its blocks together, and the events of its own timers that keep them. -/

namespace Sys2Proof.Machine

/-! ## The laws of a running part -/

/-- The working show stays within the limits of its parts, and its cues name defined curves (R10 to R13, R30 to R32, R107,
R129, R180). -/
structure Show.Ok (w : Show) : Prop where
  params : ParamsLaw w.params
  patch : PatchLaw w
  cues : CueListLaw w
  curves : CurveLaw w
  arms : ArmLaw w
  defined : ∀ q ∈ w.cues, ∀ a ∈ q.actions, (w.curve a.curve).isSome

/-- Every law of a part that runs, but for the blackout flag. -/
structure Standing (s : State) : Prop where
  phase : s.phase = .running
  playing : Playing s
  report : ReportLaw s.report
  work : s.working.Ok
  session : SessionLaw s.editor
  chain : ChainLaw s.chain
  inputs : InputLaw s.inputs
  counters : CounterLaw s
  memory : MemoryLaw s.mem
  store : StoreLaw s.mem
  composed : ∀ o : Fin 40, Table.at s.comp.composed o ≤ 4095

/-- Every law of a part that runs. -/
structure Operating (s : State) : Prop extends Standing s where
  blackout : s.comp.lineBlackout = s.blackoutCondition

theorem Show.Ok.backTime {w : Show} (h : w.Ok) : w.params.backTime ≤ 60000 := by
  have ok := h.params 0x16 (by decide) (by decide)
  exact of_decide_eq_true (p := w.params.backTime ≤ 60000) ok

theorem Show.Ok.plays {w : Show} (h : w.Ok) : w.Plays where
  cues := by
    refine ⟨fun q hq => ?_, h.backTime⟩
    obtain ⟨_, _, _, each⟩ := h.cues
    obtain ⟨number, _, _, _, _, ranges⟩ := each q hq
    exact ⟨number, fun a ha => ⟨ranges a ha, h.defined q hq a ha⟩⟩
  curves := h.curves
  arms := h.arms

theorem Show.Ok.of_arms {w : Show} (h : w.Ok) {arms : Table (Option ArmDef) 8} (law : ArmLaw { w with arms := arms }) :
    Show.Ok { w with arms := arms } :=
  { params := h.params, patch := h.patch, cues := h.cues, curves := h.curves, arms := law, defined := h.defined }

theorem Standing.runs {s : State} (h : Standing s) : Runs s := ⟨h.work.plays, h.playing⟩

/-- The laws of playback with the ranges of levels and the definition of curves. -/
theorem Playing.levels {s : State} (h : Playing s) (composed : ∀ o : Fin 40, Table.at s.comp.composed o ≤ 4095) :
    LevelLaw s := by
  obtain ⟨master, masterFade⟩ := h.master
  refine ⟨fun c => (h.engine.chans c).level, fun c f hf => ?_, fun e he => ?_, master, masterFade, composed⟩
  · have ok := (h.engine.chans c).fade f hf
    exact ⟨ok.start, ok.target, ok.lasts, ok.duration⟩
  · have ok := h.engine.entries e he
    exact ⟨ok.target, ok.time, ok.left⟩

theorem Playing.defined {s : State} (h : Playing s)
    (cues : ∀ q ∈ s.working.cues, ∀ a ∈ q.actions, (s.working.curve a.curve).isSome) : CurvesDefined s :=
  ⟨fun c f hf => ((h.engine.chans c).fade f hf).curve, fun e he => (h.engine.entries e he).curve, cues⟩

theorem Operating.sound {s : State} (h : Operating s) : Sound s := by
  obtain ⟨⟨park, sched⟩, ⟨freeze, position, player⟩, live, tags⟩ := h.playing.laws
  exact {
    park := park, freeze := freeze, sched := sched, live := live, tags := tags, position := position, player := player
    report := h.report, params := h.work.params, patch := h.work.patch, cues := h.work.cues, curves := h.work.curves
    arms := h.work.arms, session := h.session, defined := h.playing.defined h.work.defined, chain := h.chain
    blackout := fun _ => h.blackout, inputs := h.inputs, counters := h.counters, memory := h.memory, store := h.store
    levels := h.playing.levels h.composed, atRest := fun stopped => absurd h.phase stopped }

theorem Sound.operating {s : State} (h : Sound s) (run : s.phase = .running) : Operating s where
  phase := run
  playing := h.playing
  report := h.report
  work := ⟨h.params, h.patch, h.cues, h.curves, h.arms, h.defined.2.2⟩
  session := h.session
  chain := h.chain
  inputs := h.inputs
  counters := h.counters
  memory := h.memory
  store := h.store
  composed := by
    obtain ⟨_, _, _, _, _, composed⟩ := h.levels
    exact composed
  blackout := h.blackout run

/-! ## What playback and armed actions keep -/

theorem blackoutCondition_congr {s t : State} (params : t.working.params = s.working.params)
    (inputs : t.inputs = s.inputs) : t.blackoutCondition = s.blackoutCondition := by
  have active (i : Input) : t.active i = s.active i := by rw [State.active, State.active, params, inputs]
  unfold State.blackoutCondition
  simp only [params, active]

theorem Standing.of_acted {s t : State} (h : Standing s) (acted : Acted s t) (runs : Runs t) : Standing t where
  phase := acted.phase.trans h.phase
  playing := runs.playing
  report := acted.report.law h.report
  work := by
    rw [acted.working]
    exact h.work.of_arms (acted.working ▸ runs.plays.arms)
  session := by rw [acted.editor]; exact h.session
  chain := by rw [acted.chain]; exact h.chain
  inputs := by rw [acted.inputs]; exact h.inputs
  counters := by
    unfold CounterLaw
    rw [acted.chain, acted.line]
    exact h.counters
  memory := by rw [acted.mem]; exact h.memory
  store := by rw [acted.mem]; exact h.store
  composed := by rw [acted.comp]; exact h.composed

theorem Operating.of_acted {s t : State} (h : Operating s) (acted : Acted s t) (runs : Runs t) : Operating t where
  toStanding := h.toStanding.of_acted acted runs
  blackout := by rw [acted.comp, blackoutCondition_congr acted.params acted.inputs, h.blackout]

theorem Operating.of_played {s t : State} (h : Operating s) (played : Played s t) (playing : Playing t) : Operating t :=
  h.of_acted played.acted (h.runs.of_played played playing)

/-- Handing the blackout condition over completes the laws. -/
theorem Standing.handed {s : State} (h : Standing s) : Operating (handBlackout s) where
  toStanding := { h with playing := h.playing.of_same rfl rfl rfl rfl }
  blackout := rfl

theorem Operating.offer {s : State} (d : Report) (h : Operating s) : Operating (offer d s) :=
  h.of_played (offer_played d s) (offer_playing d h.playing)

/-! ## The events of playback -/

theorem takeCueDone_operating {s : State} (h : Operating s) : Operating (takeCueDone s) :=
  h.of_acted (takeCueDone_acted s) (takeCueDone_runs h.runs)

theorem expireSched_operating {s : State} {e : Sched} (due : s.schedDue = some e) (h : Operating s) :
    Operating (expireSched e s) := h.of_played (expireSched_played e s) (expireSched_playing due h.playing)

theorem expireFollow_operating {s : State} (due : s.followDue = true) (h : Operating s) : Operating (expireFollow s) :=
  h.of_played (expireFollow_played s) (expireFollow_playing h.work.plays.cues due h.playing)

theorem expireEdit_operating {s : State} (h : Operating s) : Operating (expireEdit s) := by
  have closed : Operating (closeSession s) := { h with playing := h.playing.of_same rfl rfl rfl rfl, session := trivial }
  unfold expireEdit
  split
  · exact h
  · exact closed.offer _
  · exact closed.offer _

/-! ## The input unit -/

theorem Level.flip_of_ne {a b : Level} (h : a ≠ b) : Level.flip b = a := by
  cases a <;> cases b <;> simp_all [Level.flip]

theorem InputLaw.flip {u : InputUnit} {i : Input} (h : InputLaw u) (waits : Table.at u.wait i ≠ none) :
    InputLaw { u with
      level := Table.put u.level i (Level.flip (Table.at u.level i))
      wait := Table.put u.wait i none } := by
  intro j
  rw [Table.at_put, Table.at_put]
  split
  · next same =>
    subst same
    simpa using (Level.flip_of_ne fun e => waits ((h i).mpr e)).symm
  · exact h j

theorem InputLaw.change {u : InputUnit} {i : Input} {l : Level} {w : Option Wait} {sampled : Table Bool 4}
    (h : InputLaw u) (waits : w = none ↔ l = Table.at u.level i) :
    InputLaw { u with wait := Table.put u.wait i w, sample := Table.put u.sample i l, sampled := sampled } := by
  intro j
  rw [Table.at_put, Table.at_put]
  split
  · next same =>
    subst same
    exact waits
  · exact h j

/-- A line that moves away from its last sample waits exactly if it moved away from the debounced level. -/
theorem waitAfter_none {i : Input} {l : Level} {s : State} (h : InputLaw s.inputs)
    (moved : l ≠ Table.at s.inputs.sample i) : s.waitAfter i l = none ↔ l = Table.at s.inputs.level i := by
  unfold State.waitAfter
  cases hw : Table.at s.inputs.wait i with
  | none => simp
  | some w =>
    have away : Table.at s.inputs.sample i ≠ Table.at s.inputs.level i := fun e => by simp [(h i).mpr e] at hw
    generalize Table.at s.inputs.sample i = a at moved away
    generalize Table.at s.inputs.level i = b at away ⊢
    cases a <;> cases b <;> cases l <;> simp_all

theorem lineGoes_operating {i : Input} {l : Level} {s : State} (h : Operating s) : Operating (lineGoes i l s) := by
  have moved : Operating (setLevel i l s) := { h with playing := h.playing.of_same rfl rfl rfl rfl }
  unfold lineGoes
  dsimp only
  split
  · next seen =>
    have other : l ≠ Table.at (setLevel i l s).inputs.sample i := by
      rw [Bool.and_eq_true] at seen
      exact of_decide_eq_true seen.2
    exact { moved with
      playing := moved.playing.of_same rfl rfl rfl rfl
      inputs := InputLaw.change h.inputs (waitAfter_none moved.inputs other) }
  · exact moved

/-- The input after its debounce wait has run its length. -/
def flipped (i : Input) (s : State) : State :=
  s.setInputs { s.inputs with
    level := Table.put s.inputs.level i (Level.flip (Table.at s.inputs.level i))
    wait := Table.put s.inputs.wait i none }

theorem flipped_standing {i : Input} {s : State} (h : Standing s) (due : s.debounceDue i = true) :
    Standing (flipped i s) := by
  have waits : Table.at s.inputs.wait i ≠ none := fun none => by simp [State.debounceDue, none] at due
  exact { h with playing := h.playing.of_same rfl rfl rfl rfl, inputs := h.inputs.flip waits }

/-- An input that is not a BLACKOUT input does not change the blackout condition (R125). -/
theorem flipped_blackoutCondition {i : Input} {s : State} (role : Table.at s.working.params.role i ≠ .blackout) :
    (flipped i s).blackoutCondition = s.blackoutCondition := by
  unfold State.blackoutCondition
  congr 1
  funext j
  change (Table.at s.working.params.role j == .blackout && (flipped i s).active j) = _
  by_cases same : i = j
  · subst same
    have : (Table.at s.working.params.role i == Role.blackout) = false := by simpa using role
    rw [this, Bool.false_and, Bool.false_and]
  · have level : (flipped i s).active j = s.active j := by
      change activeAt _ (Table.at (Table.put _ i _) j) = _
      rw [Table.at_put_ne _ _ same]
      rfl
    rw [level]

theorem inputGo_operating {active : Bool} {s : State} (h : Operating s) : Operating (inputGo active s) :=
  h.of_acted (inputGo_acted active s) (inputGo_runs h.runs)

theorem takeInputEvent_operating {i : Input} {active : Bool} {s : State} (h : Operating s) :
    Operating (takeInputEvent i active s) := h.of_acted (takeInputEvent_acted i active s) (takeInputEvent_runs h.runs)

/-- The input event of a BLACKOUT input hands the condition over; of any other the flag stands as before (R122 to R125). -/
theorem deliverInput_operating {i : Input} {active playerFirst : Bool} {s : State} (h : Standing s)
    (flag : Table.at s.working.params.role i ≠ .blackout → s.comp.lineBlackout = s.blackoutCondition) :
    Operating (deliverInput i active playerFirst s) := by
  have whole (role : Table.at s.working.params.role i ≠ .blackout) : Operating s := ⟨h, flag role⟩
  unfold deliverInput
  split
  · next role => exact whole (by simp [role])
  · next role => exact takeInputEvent_operating (whole (by simp [role]))
  · next role =>
    split
    · exact takeInputEvent_operating (inputGo_operating (whole (by simp [role])))
    · exact inputGo_operating (takeInputEvent_operating (whole (by simp [role])))
  · exact (h.of_acted (takeInputEvent_acted i active s) (takeInputEvent_runs h.runs)).handed

theorem expireDebounce_operating {i : Input} {playerFirst : Bool} {s : State} (due : s.debounceDue i = true)
    (h : Operating s) : Operating (expireDebounce i playerFirst s) := by
  have standing := flipped_standing h.toStanding due
  have flag (role : Table.at s.working.params.role i ≠ .blackout) :
      (flipped i s).comp.lineBlackout = (flipped i s).blackoutCondition :=
    h.blackout.trans (flipped_blackoutCondition role).symm
  change Operating (inputEvent i playerFirst (flipped i s))
  unfold inputEvent
  dsimp only
  split
  · have reported := standing.of_acted (offer_played _ (flipped i s)).acted
      ⟨h.work.plays, offer_playing (.inputChange (onlyInput i) (flipped i s).activeMask 0) standing.playing⟩
    exact deliverInput_operating reported flag
  · exact deliverInput_operating standing flag

/-! ## The outputs -/

theorem pwmBoundary_operating {s : State} (h : Operating s) : Operating (pwmBoundary s) :=
  { h with playing := h.playing.of_same rfl rfl rfl rfl }

theorem finish_operating {s : State} (h : Operating s) : Operating (s.setChain s.chain.finish) where
  phase := h.phase
  playing := h.playing.of_same rfl rfl rfl rfl
  report := h.report
  work := h.work
  session := h.session
  chain := Chain.finish_law h.chain
  inputs := h.inputs
  counters := by
    obtain ⟨skips, rest⟩ := h.counters
    exact ⟨(Chain.finish_skips s.chain).trans_le skips, rest⟩
  memory := h.memory
  store := h.store
  composed := h.composed
  blackout := h.blackout

/-- The levels and the master of a snapshot lie in their ranges. -/
def Snapshot.InRange (p : Snapshot) : Prop := (∀ c, Table.at p.levels c ≤ 4095) ∧ p.master ≤ 1000

theorem compose_operating {p : Snapshot} {s : State} (range : p.InRange) (h : Operating s) : Operating (compose p s) := by
  obtain ⟨levels, master⟩ := range
  have condition : (compose p s).blackoutCondition = s.blackoutCondition :=
    blackoutCondition_congr (congrArg Show.params (compose_working p s)) (by rw [compose_frame])
  have chainLaw : ChainLaw (compose p s).chain ∧ (compose p s).chain.skips ≤ 65535 := by
    rw [compose_chain]
    split
    · exact ⟨h.chain, h.counters.1⟩
    · exact ⟨Chain.write_take_law h.chain, Chain.write_take_skips h.counters.1 h.chain⟩
  exact {
    phase := by rw [compose_frame]; exact h.phase
    playing := h.playing.of_same (compose_fade p s) (compose_player p s) (compose_now p s)
      (congrArg Show.curves (compose_working p s))
    report := by rw [compose_frame]; exact h.report
    work := by rw [compose_working]; exact h.work
    session := by rw [compose_frame]; exact h.session
    chain := chainLaw.1
    inputs := by rw [compose_frame]; exact h.inputs
    counters := ⟨chainLaw.2, by rw [compose_frame]; exact h.counters.2⟩
    memory := by rw [compose_frame]; exact h.memory
    store := by rw [compose_frame]; exact h.store
    composed := fun o => by
      rw [compose_composed]
      dsimp only
      rw [at_tabulate]
      exact composeOutput_le levels master (h.work.patch o).2
    blackout := by rw [condition, compose_composed]; exact h.blackout }

theorem publish_operating {p : Snapshot} {s : State} (range : p.InRange) (h : Operating s) : Operating (publish p s) := by
  have published : Operating (s.setFade { s.fade with snapshot := some p }) :=
    { h with playing := h.playing.withMaster rfl rfl h.playing.master }
  have composed := compose_operating range published
  have ahead := composed.of_acted (takeAllAhead_acted _) (takeAllAhead_runs composed.runs)
  exact ahead.of_acted (takeSnapshot_acted p _) (takeSnapshot_runs ahead.runs)

theorem Playing.snapshot {s : State} (h : Playing s) (before : Table Channel 24) (now : Time) :
    (snapshotOf before now s.fade).InRange := by
  obtain ⟨master, _⟩ := h.master
  refine ⟨fun c => ?_, master⟩
  change Table.at (tabulate _) c ≤ 4095
  rw [at_tabulate]
  exact (h.engine.chans c).level

theorem frameEvent_operating {s : State} (h : Operating s) : Operating (frameEvent s) := by
  have started : Operating (startFrameTimer s) := { h with playing := h.playing.of_same rfl rfl rfl rfl }
  have advanced := started.of_played (frameAdvance_played _)
    (frameAdvance_playing started.work.curves started.playing)
  unfold frameEvent
  dsimp only
  generalize frameAdvance (startFrameTimer s) = u at advanced ⊢
  have waiting : Operating (putAhead s.arm.inbox.length u) :=
    advanced.of_acted (putAhead_acted _ _) (putAhead_runs advanced.runs)
  exact publish_operating (waiting.playing.snapshot _ _) waiting

end Sys2Proof.Machine
end

section
/-! SUPPORT. The banks and the store: the magic of a bank, what a stopped phase leaves, and the store's events as changes of
show memory alone (chapter 10). -/

namespace Sys2Proof.Machine

/-! ## The magic of a bank -/

/-- The first four bytes of a bank do not match the magic (R193). -/
def Memory.Spoiled (m : Memory) : Prop := littleEndian (readBytes m 0 4) ≠ magic

theorem readBytes_congr {m n : Memory} {a len : Nat} (h : ∀ b, a ≤ b → b < a + len → readByte m b = readByte n b) :
    readBytes m a len = readBytes n a len :=
  List.map_congr_left fun k hk => h (a + k) (by omega) (by have := List.mem_range.mp hk; omega)

/-- Bytes written elsewhere leave a byte alone. -/
theorem readByte_writeBytes_ne (m : Memory) (a b : Nat) (vs : List Byte) (h : b < a ∨ a + vs.length ≤ b) :
    readByte (writeBytes m a vs) b = readByte m b := by
  induction vs generalizing m a with
  | nil => rfl
  | cons v rest ih =>
    rw [List.length_cons] at h
    rw [writeBytes, ih (writeByte m a v) (a + 1) (by omega), readByte_writeByte_ne m a b v (by omega)]

theorem nonMagic_ne (w : Word) : (nonMagic w).toNat ≠ magic := by
  unfold nonMagic
  split
  · next h =>
    rw [BitVec.toNat_not, h]
    decide
  · next h => exact h

theorem length_byte4 (n : Nat) : (byte4 n).length = 4 := rfl

theorem readMagic_write {m : Memory} (n : Nat) (w : m.wf = true) (h : n < 4294967296) :
    littleEndian (readBytes (writeBytes m 0 (byte4 n)) 0 4) = n := by
  have back := readBytes_writeBytes m 0 (byte4 n) w
  rw [length_byte4] at back
  rw [back, littleEndian_byte4 n h]

theorem spoiled_cleared {m : Memory} (v : Word) (w : m.wf = true) :
    Memory.Spoiled (writeBytes m 0 (byte4 (nonMagic v).toNat)) := by
  unfold Memory.Spoiled
  rw [readMagic_write _ w (nonMagic v).isLt]
  exact nonMagic_ne v

theorem Memory.Spoiled.congr {m n : Memory} (h : m.Spoiled) (same : ∀ b, b < 4 → readByte n b = readByte m b) :
    n.Spoiled := by
  unfold Memory.Spoiled
  rw [readBytes_congr fun b _ hb => same b (by omega)]
  exact h

theorem spoiled_blank : Memory.Spoiled [] := by
  unfold Memory.Spoiled
  decide

theorem spoiled_writeBytes {m : Memory} {a : Nat} {vs : List Byte} (h : m.Spoiled) (above : 4 ≤ a) :
    Memory.Spoiled (writeBytes m a vs) :=
  h.congr fun b hb => readByte_writeBytes_below m a b vs (by omega)

/-! ## A phase that is stopped -/

/-- The bytes that a store leaves in its target when its phase is stopped (R197, R199). -/
def State.stopped (r : Store) (s : State) : Memory :=
  match r.phase with
  | .erasing => partlyErased s.free
  | .programming => partlyProgrammed s.free s.mem.staging (s.bank r.target)
  | .verifying => s.bank r.target

/-- The state after the banks and free values of a stopped phase. -/
theorem stopPhase_eq (r : Store) (s : State) : ∃ free, stopPhase r s
    = { s with mem := { s.mem with banks := Table.put s.mem.banks r.target (s.stopped r) }, free := free } := by
  obtain ⟨phase, target, generation, limit⟩ := r
  cases phase with
  | erasing => exact ⟨_, rfl⟩
  | programming => exact ⟨_, rfl⟩
  | verifying =>
    refine ⟨s.free, ?_⟩
    change s = { s with mem := { s.mem with banks := Table.put s.mem.banks target (Table.at s.mem.banks target) } }
    rw [Table.put_at_self]

theorem stopped_wf {r : Store} {s : State} (h : MemoryLaw s.mem) : (s.stopped r).wf = true := by
  unfold State.stopped
  split
  · exact partlyErased_wf _
  · exact partlyProgrammed_wf _ _ _ (h.1 r.target)
  · exact h.1 r.target

theorem stopped_spoiled {r : Store} {s : State} (h : (s.bank r.target).Spoiled) : (s.stopped r).Spoiled := by
  unfold State.stopped
  split
  · exact spoiled_cleared _ (wfFrom_bytesFrom _ 0 _)
  · exact h.congr fun b hb => readByte_partlyProgrammed_magic _ b _ _ hb
  · exact h

theorem MemoryLaw.put {m : ShowMemory} (h : MemoryLaw m) {b : Bank} {bytes : Memory} (w : bytes.wf = true) (c : Bank) :
    Memory.wf (Table.at (Table.put m.banks b bytes) c) = true := by
  rw [Table.at_put]
  split
  · exact w
  · exact h.1 c

/-! ## The events of a store -/

section

variable {r : Store} {s : State}

theorem Operating.withMem (h : Operating s) {m : ShowMemory} {free : Nat} (memory : MemoryLaw m) (store : StoreLaw m) :
    Operating { s with mem := m, free := free } :=
  { h with playing := h.playing.of_same rfl rfl rfl rfl, memory := memory, store := store }

/-- While no store is in progress there is nothing to keep invalid. -/
theorem storeLaw_of_none {m : ShowMemory} (h : m.store = none) : StoreLaw m := fun r hr => by simp [h] at hr

theorem endStore_operating {ok : Bool} {free : Nat} {bytes : Memory} (h : Operating s) (w : bytes.wf = true) :
    Operating (endStore ok r { s with mem := { s.mem with banks := Table.put s.mem.banks r.target bytes }, free := free }) :=
  Operating.offer _ (h.withMem (m := { banks := Table.put s.mem.banks r.target bytes
                                       recs := Table.put s.mem.recs r.target (if ok then some r.generation else none)
                                       store := none, staging := [], lastResult := some ⟨ok, r.target, r.generation⟩ })
    (free := free) ⟨h.memory.put w, rfl⟩ (storeLaw_of_none rfl))

theorem failStore_operating (h : Operating s) : Operating (failStore r s) := by
  obtain ⟨free, stop⟩ := stopPhase_eq r s
  unfold failStore
  rw [stop]
  exact endStore_operating h (stopped_wf h.memory)

/-- A store goes on to its next phase while its target stays invalid. -/
theorem enterPhase_operating {p : StorePhase} {ms : Nat} {bytes : Memory} (h : Operating s)
    (storing : s.mem.store = some r) (w : bytes.wf = true) (spoiled : bytes.Spoiled) :
    Operating (enterPhase p ms r (s.putBank r.target bytes)) := by
  refine h.withMem (free := s.free) ⟨h.memory.put w, h.memory.2⟩ fun x hx => ?_
  obtain rfl := (Option.some.inj hx).symm
  refine ⟨(h.store r storing).1, ?_⟩
  change littleEndian (readBytes (Table.at (Table.put s.mem.banks r.target bytes) r.target) 0 4) ≠ magic
  rw [Table.at_put_self]
  exact spoiled

theorem storeIn_some {p : StorePhase} (h : s.storeIn p = some r) : s.mem.store = some r ∧ r.phase = p := by
  unfold State.storeIn at h
  cases hs : s.mem.store with
  | none => simp [hs] at h
  | some x =>
    by_cases hp : x.phase = p
    · obtain rfl : x = r := by simpa [hs, hp] using h
      exact ⟨rfl, hp⟩
    · simp [hs, hp] at h

theorem eraseEnds_operating {complete : Bool} (h : Operating s) (storing : s.mem.store = some r) :
    Operating (eraseEnds complete r s) := by
  unfold eraseEnds
  split
  · exact enterPhase_operating h storing rfl spoiled_blank
  · exact failStore_operating h

theorem programmingEnds_operating {taken : Bool} (h : Operating s) (storing : s.mem.store = some r) :
    Operating (programmingEnds taken r s) := by
  unfold programmingEnds
  split
  · exact enterPhase_operating h storing (writeBytes_wf _ 4 _ (h.memory.1 r.target))
      (spoiled_writeBytes (h.store r storing).2 (le_refl 4))
  · exact failStore_operating h

theorem verifyEnds_operating {same magicRead : Bool} (h : Operating s) : Operating (verifyEnds same magicRead r s) := by
  have written (a : Nat) (vs : List Byte) : Memory.wf (writeBytes (s.bank r.target) a vs) = true :=
    writeBytes_wf _ a vs (h.memory.1 r.target)
  unfold verifyEnds
  dsimp only
  split
  · exact endStore_operating h (written 4 _)
  · split
    · exact failStore_operating h
    · split
      · exact endStore_operating (free := s.free) h (written 0 _)
      · exact endStore_operating h (written 0 _)

theorem acceptStore_operating {target : Bank} {generation : Nat} (h : Operating s) :
    Operating (acceptStore target generation s) := by
  have cleared := h.memory.1 target
  unfold acceptStore
  dsimp only
  generalize bankBytes generation _ = staged
  have blank : Memory.wf [] = true := rfl
  have canonical := writeBytes_wf [] 0 staged blank
  refine h.withMem (free := s.free + 1) ⟨h.memory.put (writeBytes_wf _ 0 _ cleared), canonical⟩ fun x hx => ?_
  obtain rfl := (Option.some.inj hx).symm
  change Table.at (Table.put s.mem.recs target none) target = none
    ∧ littleEndian (readBytes (Table.at (Table.put s.mem.banks target _) target) 0 4) ≠ magic
  rw [Table.at_put_self, Table.at_put_self]
  exact ⟨rfl, spoiled_cleared _ cleared⟩

end

/-- A store that is abandoned leaves the banks in canonical form and nothing in progress (R199). -/
theorem abandonStore_eq (s : State) : ∃ banks free, abandonStore s
    = { s with
        mem := { s.mem with banks := banks, store := none, staging := if s.mem.store = none then s.mem.staging else [] }
        free := free }
      ∧ (MemoryLaw s.mem → ∀ b : Bank, Memory.wf (Table.at banks b) = true) := by
  unfold abandonStore
  cases hs : s.mem.store with
  | none => exact ⟨s.mem.banks, s.free, by simp [← hs], fun h => h.1⟩
  | some r =>
    obtain ⟨free, stop⟩ := stopPhase_eq r s
    dsimp only
    rw [stop]
    exact ⟨Table.put s.mem.banks r.target (s.stopped r), free, rfl, fun h => h.put (stopped_wf h)⟩

end Sys2Proof.Machine
end

section
/-! SUPPORT. The working show: parameters set and read, the cue list and the action buffer in order, the pools, the ranges of
operand forms, and the show of an image (chapters 2, 5, 7, 9 and 10). -/

namespace Sys2Proof.Machine

/-! ## Parameters -/

theorem roleCode_roleOf {v : Nat} (h : v ≤ 3) : roleCode (roleOf v) = v := by
  interval_cases v <;> rfl

theorem polarityCode_polarityOf {v : Nat} (h : v ≤ 1) : polarityCode (polarityOf v) = v := by
  interval_cases v <;> rfl

theorem flag_eq_one {v : Nat} (h : v ≤ 1) : flag (v == 1) = v := by
  interval_cases v <;> rfl

/-- A parameter set to a value that CONFIGURE allows reads back (R179, R180). -/
theorem Params.value_set {id v : Nat} {p : Params} (ok : paramOk id v = true) : (p.set id v).value id = v := by
  unfold Params.set
  split
  all_goals try rfl
  all_goals simp only [paramOk, decide_eq_true_eq, Params.value, Table.at_put_self] at ok ⊢
  case h_6 | h_7 | h_8 | h_9 => exact roleCode_roleOf ok
  case h_10 | h_11 | h_12 | h_13 => exact polarityCode_polarityOf ok
  case h_14 | h_15 | h_16 | h_17 => exact flag_eq_one ok
  case h_18 => exact Nat.mod_eq_of_lt (by omega)
  case h_20 => interval_cases v <;> rfl
  case h_23 => exact Nat.mod_eq_of_lt (by omega)
  case h_24 => cases ok

/-- A parameter keeps its value when another one is set. -/
theorem Params.value_set_ne {id id' v : Nat} {p : Params} (ne : id' ≠ id) : (p.set id v).value id' = p.value id' := by
  unfold Params.set
  split
  all_goals
    unfold Params.value
    split
    all_goals first | rfl | exact absurd rfl ne | exact congrArg _ (Table.at_put_ne _ _ (by decide))

theorem ParamsLaw.set {id v : Nat} {p : Params} (h : ParamsLaw p) (ok : paramOk id v = true) : ParamsLaw (p.set id v) := by
  intro id' lo hi
  by_cases e : id' = id
  · subst e
    rwa [Params.value_set ok]
  · rw [Params.value_set_ne e]
    exact h id' lo hi

theorem paramsLaw_default : ParamsLaw Params.default := by
  intro id lo hi
  have all : ∀ k : Fin 23, paramOk (k.val + 1) (Params.default.value (k.val + 1)) = true := by decide
  have this := all ⟨id - 1, by omega⟩
  rwa [show id - 1 + 1 = id by omega] at this

/-! ## The cue list -/

/-- The number of a cue before that of each cue behind it (R31). -/
abbrev CuesInOrder (l : List Cue) : Prop := (l.map (·.number)).Pairwise (· < ·)

/-- What the cue of this number weighs, 0 when there is none. -/
def weightAt (weight : Cue → Nat) (n : Nat) (l : List Cue) : Nat := ((l.find? (·.number == n)).map weight).getD 0

theorem find_none_of_lt {n : Nat} {l : List Cue} (above : ∀ x ∈ l, n < x.number) : l.find? (·.number == n) = none := by
  rw [List.find?_eq_none]
  intro x hx
  have := above x hx
  simp
  omega

theorem CuesInOrder.tail {x : Cue} {rest : List Cue} (h : CuesInOrder (x :: rest)) :
    (∀ y ∈ rest, x.number < y.number) ∧ CuesInOrder rest := by
  rw [CuesInOrder, List.map_cons, List.pairwise_cons] at h
  exact ⟨fun y hy => h.1 _ (List.mem_map_of_mem hy), h.2⟩

theorem mem_insertCue {q y : Cue} {l : List Cue} (h : CuesInOrder l) :
    y ∈ insertCue q l ↔ y = q ∨ (y ∈ l ∧ y.number ≠ q.number) := by
  induction l with
  | nil => simp [insertCue]
  | cons x rest ih =>
    obtain ⟨above, order⟩ := h.tail
    unfold insertCue
    split
    · next less =>
      have ne : ∀ e : y = x, y.number ≠ q.number := fun e => by rw [e]; omega
      rw [List.mem_cons, ih order, List.mem_cons]
      have := fun e => ne e
      tauto
    · split
      · next same =>
        have ne : y ∈ rest → y.number ≠ q.number := fun hy => by have := above y hy; omega
        have eq : y = x → y.number = q.number := fun e => by rw [e, same]
        rw [List.mem_cons, List.mem_cons]
        tauto
      · have ne : y ∈ x :: rest → y.number ≠ q.number := fun hy => by
          rcases List.mem_cons.mp hy with e | hy
          · rw [e]
            omega
          · have := above y hy
            omega
        rw [List.mem_cons]
        tauto

theorem insertCue_order {q : Cue} {l : List Cue} (h : CuesInOrder l) : CuesInOrder (insertCue q l) := by
  induction l with
  | nil => exact List.pairwise_singleton _ _
  | cons x rest ih =>
    obtain ⟨above, order⟩ := h.tail
    unfold insertCue
    split
    · next less =>
      rw [CuesInOrder, List.map_cons, List.pairwise_cons]
      refine ⟨fun n hn => ?_, ih order⟩
      obtain ⟨y, hy, rfl⟩ := List.mem_map.mp hn
      rcases (mem_insertCue order).mp hy with rfl | ⟨hy, _⟩
      · exact less
      · exact above y hy
    · split
      · next same =>
        rw [CuesInOrder, List.map_cons, List.pairwise_cons]
        refine ⟨fun n hn => ?_, order⟩
        obtain ⟨y, hy, rfl⟩ := List.mem_map.mp hn
        have := above y hy
        omega
      · rw [CuesInOrder, List.map_cons, List.pairwise_cons]
        refine ⟨fun n hn => ?_, h⟩
        obtain ⟨y, hy, rfl⟩ := List.mem_map.mp hn
        rcases List.mem_cons.mp hy with rfl | hy
        · omega
        · have := above y hy
          omega

/-- The weight of a cue list after a cue is put in: the one of its number goes. -/
theorem insertCue_weight (weight : Cue → Nat) {q : Cue} {l : List Cue} (h : CuesInOrder l) :
    ((insertCue q l).map weight).sum + weightAt weight q.number l = (l.map weight).sum + weight q := by
  induction l with
  | nil => simp [insertCue, weightAt]
  | cons x rest ih =>
    obtain ⟨above, order⟩ := h.tail
    have := ih order
    unfold insertCue
    split
    · next less =>
      have skip : weightAt weight q.number (x :: rest) = weightAt weight q.number rest := by
        rw [weightAt, List.find?_cons_of_neg (by simp; omega), weightAt]
      rw [skip]
      simp only [List.map_cons, List.sum_cons]
      omega
    · split
      · next same =>
        have found : weightAt weight q.number (x :: rest) = weight x := by
          rw [weightAt, List.find?_cons_of_pos (by simpa using same)]
          rfl
        rw [found]
        simp only [List.map_cons, List.sum_cons]
        omega
      · have none : weightAt weight q.number (x :: rest) = 0 := by
          rw [weightAt, find_none_of_lt fun y hy => ?_]
          · rfl
          · rcases List.mem_cons.mp hy with rfl | hy
            · omega
            · have := above y hy
              omega
        rw [none]
        simp only [List.map_cons, List.sum_cons]
        omega

/-- The weight of a cue list after a cue is taken out. -/
theorem removeCue_weight (weight : Cue → Nat) {n : Nat} {l : List Cue} (h : CuesInOrder l) :
    ((l.filter fun q => q.number != n).map weight).sum + weightAt weight n l = (l.map weight).sum := by
  induction l with
  | nil => simp [weightAt]
  | cons x rest ih =>
    obtain ⟨above, order⟩ := h.tail
    have := ih order
    by_cases same : x.number = n
    · have found : weightAt weight n (x :: rest) = weight x := by
        rw [weightAt, List.find?_cons_of_pos (by simpa using same)]
        rfl
      have others : rest.filter (fun q => q.number != n) = rest :=
        List.filter_eq_self.mpr fun y hy => by have := above y hy; simp; omega
      rw [found, List.filter_cons_of_neg (by simpa using same), others, List.map_cons, List.sum_cons]
      omega
    · have skip : weightAt weight n (x :: rest) = weightAt weight n rest := by
        rw [weightAt, List.find?_cons_of_neg (by simpa using same), weightAt]
      rw [skip, List.filter_cons_of_pos (by simpa using same)]
      simp only [List.map_cons, List.sum_cons]
      omega

theorem sum_map_one (l : List Cue) : (l.map fun _ => 1).sum = l.length := by simp

/-! ## The action buffer -/

/-- Actions in channel order (R36). -/
abbrev ActionsInOrder (l : List Action) : Prop := (l.map (·.channel)).Pairwise (· < ·)

theorem ActionsInOrder.tail {x : Action} {rest : List Action} (h : ActionsInOrder (x :: rest)) :
    (∀ y ∈ rest, x.channel < y.channel) ∧ ActionsInOrder rest := by
  rw [ActionsInOrder, List.map_cons, List.pairwise_cons] at h
  exact ⟨fun y hy => h.1 _ (List.mem_map_of_mem hy), h.2⟩

theorem mem_setAction {a y : Action} {l : List Action} (h : ActionsInOrder l) :
    y ∈ setAction a l ↔ y = a ∨ (y ∈ l ∧ y.channel ≠ a.channel) := by
  induction l with
  | nil => simp [setAction]
  | cons x rest ih =>
    obtain ⟨above, order⟩ := h.tail
    unfold setAction
    split
    · next less =>
      have ne : y = x → y.channel ≠ a.channel := fun e => by rw [e]; exact ne_of_lt less
      rw [List.mem_cons, ih order, List.mem_cons]
      tauto
    · split
      · next same =>
        have ne : y ∈ rest → y.channel ≠ a.channel := fun hy => by rw [← same]; exact (ne_of_lt (above y hy)).symm
        have eq : y = x → y.channel = a.channel := fun e => by rw [e, same]
        rw [List.mem_cons, List.mem_cons]
        tauto
      · next notLess ne' =>
        have less : a.channel < x.channel := lt_of_le_of_ne (not_lt.mp notLess) (Ne.symm ne')
        have ne : y ∈ x :: rest → y.channel ≠ a.channel := fun hy => by
          rcases List.mem_cons.mp hy with e | hy
          · rw [e]
            exact ne'
          · exact (ne_of_lt (less.trans (above y hy))).symm
        rw [List.mem_cons]
        tauto

theorem setAction_order {a : Action} {l : List Action} (h : ActionsInOrder l) : ActionsInOrder (setAction a l) := by
  induction l with
  | nil => exact List.pairwise_singleton _ _
  | cons x rest ih =>
    obtain ⟨above, order⟩ := h.tail
    unfold setAction
    split
    · next less =>
      rw [ActionsInOrder, List.map_cons, List.pairwise_cons]
      refine ⟨fun n hn => ?_, ih order⟩
      obtain ⟨y, hy, rfl⟩ := List.mem_map.mp hn
      rcases (mem_setAction order).mp hy with rfl | ⟨hy, _⟩
      · exact less
      · exact above y hy
    · split
      · next same =>
        rw [ActionsInOrder, List.map_cons, List.pairwise_cons]
        refine ⟨fun n hn => ?_, order⟩
        obtain ⟨y, hy, rfl⟩ := List.mem_map.mp hn
        exact same ▸ above y hy
      · next notLess ne =>
        have less : a.channel < x.channel := lt_of_le_of_ne (not_lt.mp notLess) (Ne.symm ne)
        rw [ActionsInOrder, List.map_cons, List.pairwise_cons]
        refine ⟨fun n hn => ?_, h⟩
        obtain ⟨y, hy, rfl⟩ := List.mem_map.mp hn
        rcases List.mem_cons.mp hy with rfl | hy
        · exact less
        · exact less.trans (above y hy)

theorem applyEdit_order {e : BufferEdit} {l : List Action} (h : ActionsInOrder l) : ActionsInOrder (applyEdit l e) := by
  cases e with
  | set a => exact setAction_order h
  | remove c => exact h.sublist (List.filter_sublist.map _)

theorem mem_applyEdit {e : BufferEdit} {y : Action} {l : List Action} (h : ActionsInOrder l) :
    y ∈ applyEdit l e ↔ e = .set y ∨ (y ∈ l ∧ y.channel ≠ e.channel) := by
  cases e with
  | set a =>
    rw [applyEdit, mem_setAction h, BufferEdit.set.injEq, BufferEdit.channel]
    exact or_congr_left eq_comm
  | remove c => simp [applyEdit, BufferEdit.channel]

theorem distinctChannels_iff (edits : List BufferEdit) :
    distinctChannels edits = true ↔ (edits.map (·.channel)).Nodup := by
  induction edits with
  | nil => simp [distinctChannels]
  | cons e rest ih =>
    simp only [distinctChannels, Bool.and_eq_true, List.all_eq_true, bne_iff_ne, ne_eq, ih, List.map_cons,
      List.nodup_cons, List.mem_map, not_exists, not_and]

/-- The buffer after edits of different channels (R36). -/
theorem applyEdits {edits : List BufferEdit} {l : List Action} (h : ActionsInOrder l)
    (distinct : (edits.map (·.channel)).Nodup) :
    ActionsInOrder (edits.foldl applyEdit l)
      ∧ ∀ y, y ∈ edits.foldl applyEdit l
        ↔ BufferEdit.set y ∈ edits ∨ (y ∈ l ∧ ∀ e ∈ edits, e.channel ≠ y.channel) := by
  induction edits generalizing l with
  | nil => exact ⟨h, fun y => by simp⟩
  | cons e rest ih =>
    rw [List.map_cons, List.nodup_cons] at distinct
    obtain ⟨fresh, distinct⟩ := distinct
    obtain ⟨order, mem⟩ := ih (applyEdit_order (e := e) h) distinct
    refine ⟨order, fun y => ?_⟩
    rw [List.foldl_cons, mem, mem_applyEdit h, List.mem_cons, List.forall_mem_cons]
    have apart : e = .set y → ∀ x ∈ rest, x.channel ≠ y.channel := by
      rintro rfl x hx same
      exact fresh (List.mem_map.mpr ⟨x, hx, same⟩)
    have symm : BufferEdit.set y = e ↔ e = .set y := eq_comm
    have flip : y.channel ≠ e.channel ↔ e.channel ≠ y.channel := ne_comm
    tauto

/-! ## The curve table -/

/-- The points of a curve, none for an undefined one (R12). -/
def pointCount (c : Option (List Point)) : Nat := (c.map List.length).getD 0

theorem Show.pointsUsed_eq (w : Show) : w.pointsUsed = ((Table.entries w.curves).map pointCount).sum := by
  unfold Show.pointsUsed
  congr 1
  refine List.map_congr_left fun c _ => ?_
  cases c <;> rfl

theorem Table.sum_put {α : Type} {n : Nat} (weight : α → Nat) (t : Table α n) (i : Fin n) (x : α) :
    ((Table.put t i x).entries.map weight).sum + weight (Table.at t i) = (t.entries.map weight).sum + weight x := by
  have total (u : Table α n) : (u.entries.map weight).sum = ∑ j : Fin n, weight (Table.at u j) := by
    rw [Fin.sum_univ_def, Table.entries, List.map_map]
    rfl
  rw [total, total, ← Finset.add_sum_erase _ _ (Finset.mem_univ i), ← Finset.add_sum_erase _ _ (Finset.mem_univ i)]
  have rest : ∑ j ∈ Finset.univ.erase i, weight (Table.at (Table.put t i x) j)
      = ∑ j ∈ Finset.univ.erase i, weight (Table.at t j) :=
    Finset.sum_congr rfl fun j hj => by rw [Table.at_put_ne t x (Finset.ne_of_mem_erase hj).symm]
  rw [rest, Table.at_put_self]
  omega

/-- The points used after a curve is replaced. -/
theorem Show.pointsUsed_put (w : Show) (k : Fin 15) (c : Option (List Point)) :
    Show.pointsUsed { w with curves := Table.put w.curves k c } + pointCount (Table.at w.curves k)
      = w.pointsUsed + pointCount c := by
  rw [Show.pointsUsed_eq, Show.pointsUsed_eq]
  exact Table.sum_put pointCount w.curves k c

theorem Show.setCurve_eq (w : Show) (k : Fin 15) (c : Option (List Point)) :
    w.setCurve (k.val + 1) c = { w with curves := Table.put w.curves k c } := by
  unfold Show.setCurve
  exact dif_pos ⟨Nat.succ_pos _, k.isLt⟩

/-- A curve id 1 to 15 names an entry of the table. -/
theorem curveId {id : Nat} (lo : 1 ≤ id) (hi : id ≤ 15) : ∃ k : Fin 15, id = k.val + 1 :=
  ⟨⟨id - 1, by omega⟩, by simp; omega⟩

theorem Show.curve_user (w : Show) (k : Fin 15) : w.curve (k.val + 1) = Table.at w.curves k := by
  unfold Show.curve
  rw [if_neg (Nat.succ_ne_zero _)]
  exact dif_pos k.isLt

/-- The curve of an id after one entry is replaced. -/
theorem Show.curve_put (w : Show) (k : Fin 15) (c : Option (List Point)) (id : Nat) :
    Show.curve { w with curves := Table.put w.curves k c } id = if id = k.val + 1 then c else w.curve id := by
  split
  · next same =>
    rw [same, Show.curve_user]
    exact Table.at_put_self _ _ _
  · next other =>
    unfold Show.curve
    split
    · rfl
    · split
      · next inside => exact Table.at_put_ne _ _ fun e => other (by rw [e]; simp; omega)
      · rfl

theorem CurveLaw.put {w : Show} {k : Fin 15} {c : Option (List Point)} (h : CurveLaw w)
    (shape : ∀ pts, c = some pts → shapeOk pts = true)
    (room : w.pointsUsed + pointCount c ≤ 240 + pointCount (Table.at w.curves k)) :
    CurveLaw { w with curves := Table.put w.curves k c } := by
  have used := Show.pointsUsed_put w k c
  refine ⟨by omega, fun j pts hj => ?_⟩
  change Table.at (Table.put w.curves k c) j = some pts at hj
  rw [Table.at_put] at hj
  split at hj
  · exact shape pts hj
  · exact h.2 j pts hj

/-! ## Operand forms -/

theorem actionRecordOf_inRange {r : RawAction} {a : Action} (h : actionRecordOf r = some a) : a.inRange := by
  unfold actionRecordOf at h
  split at h
  · cases h
  · split at h
    · next range =>
      obtain rfl := Option.some.inj h
      exact range
    · cases h

theorem editOf_inRange {r : RawAction} {a : Action} (h : editOf r = some (.set a)) : a.inRange := by
  unfold editOf at h
  split at h
  · split at h
    · cases h
    · split at h <;> cases h
  · obtain ⟨b, hb, eq⟩ := Option.map_eq_some_iff.mp h
    obtain rfl := BufferEdit.set.inj eq
    exact actionRecordOf_inRange hb

theorem followOf_le {v : Word} {f : Option Nat} {t : Nat} (h : followOf v = some f) (ht : f = some t) : t ≤ 600000 := by
  unfold followOf at h
  split at h
  · obtain rfl := Option.some.inj h
    cases ht
  · split at h
    · next le =>
      obtain rfl := Option.some.inj h
      obtain rfl := Option.some.inj ht
      exact le
    · cases h

theorem outputOf_inRange {r : RawOutput} {o : Output} (h : outputOf r = some o) : o.threshold ≤ 4095 ∧ o.min ≤ 4095 := by
  unfold outputOf at h
  split at h
  · split at h
    · next range =>
      obtain rfl := Option.some.inj h
      exact range
    · cases h
  · cases h

theorem conditionOf_inRange {bytes : List Byte} {c : Condition} (h : conditionOf bytes = some c) : c.inRange := by
  unfold conditionOf at h
  split at h
  · split at h
    · split at h
      · obtain rfl := Option.some.inj h
        trivial
      · cases h
    · split at h
      · dsimp only at h
        split at h
        · next range =>
          obtain rfl := Option.some.inj h
          exact range
        · cases h
      · cases h
    · split at h
      · dsimp only at h
        split at h
        · next range =>
          obtain rfl := Option.some.inj h
          exact range
        · cases h
      · cases h
    · dsimp only at h
      split at h
      · next range =>
        obtain rfl := Option.some.inj h
        exact range
      · cases h
    · cases h
  · cases h

theorem actionOf_inRange {bytes : List Byte} {a : ArmAction} (h : actionOf bytes = some a) : a.inRange := by
  have guarded {p : Prop} [Decidable p] {x : ArmAction} (h : (if p then some x else none) = some a)
      (range : p → x.inRange) : a.inRange := by
    obtain ⟨hp, eq⟩ := Option.ite_none_right_eq_some.mp h
    obtain rfl := Option.some.inj eq
    exact range hp
  have plain {x : ArmAction} (h : some x = some a) (range : x.inRange) : a.inRange := by
    obtain rfl := Option.some.inj h
    exact range
  unfold actionOf at h
  split at h
  · split at h
    · exact plain h trivial
    · dsimp only at h
      exact guarded h id
    · exact plain h trivial
    · exact plain h trivial
    · exact plain h trivial
    · dsimp only at h
      exact guarded h id
    · dsimp only at h
      exact guarded h id
    · dsimp only at h
      exact guarded h id
    · cases h
  · cases h

theorem armDefOf_inRange {mode : Nat} {condition action : List Byte} {d : ArmDef}
    (h : armDefOf mode condition action = some d) : d.condition.inRange ∧ d.action.inRange := by
  unfold armDefOf at h
  split at h
  · next hc ha =>
    obtain rfl := Option.some.inj h
    exact ⟨conditionOf_inRange hc, actionOf_inRange ha⟩
  · cases h

theorem allSome_eq_some {α : Type} {l : List (Option α)} {xs : List α} (h : allSome l = some xs) : l = xs.map some := by
  induction l generalizing xs with
  | nil =>
    obtain rfl := Option.some.inj h
    rfl
  | cons x rest ih =>
    cases x with
    | none => cases h
    | some x =>
      obtain ⟨ys, hys, rfl⟩ := Option.map_eq_some_iff.mp h
      rw [ih hys]
      rfl

theorem allSome_map {α : Type} (xs : List α) : allSome (xs.map some) = some xs := by
  induction xs with
  | nil => rfl
  | cons x rest ih => rw [List.map_cons, allSome, ih]; rfl

theorem allSome_eq_none {α : Type} {l : List (Option α)} : allSome l = none ↔ none ∈ l := by
  induction l with
  | nil => simp [allSome]
  | cons x rest ih => cases x <;> simp [allSome, ih]

/-! ## The show of an image -/

theorem readMany_some {α : Type} {item : Reader α} {n : Nat} {bytes rest : List Byte} {xs : List α}
    (h : readMany item n bytes = some (xs, rest)) :
    xs.length = n ∧ ∀ x ∈ xs, ∃ before after, item before = some (x, after) := by
  induction n generalizing bytes xs with
  | zero =>
    obtain ⟨rfl, rfl⟩ := Prod.mk.inj (Option.some.inj h)
    exact ⟨rfl, fun x hx => by cases hx⟩
  | succ n ih =>
    unfold readMany at h
    split at h
    · cases h
    · next x more hx =>
      obtain ⟨⟨ys, left⟩, hys, eq⟩ := Option.map_eq_some_iff.mp h
      obtain ⟨rfl, rfl⟩ := Prod.mk.inj eq
      obtain ⟨length, each⟩ := ih hys
      refine ⟨by rw [List.length_cons, length], fun y hy => ?_⟩
      rcases List.mem_cons.mp hy with rfl | hy
      · exact ⟨_, _, hx⟩
      · exact each y hy

theorem paramsFrom_law {pairs : List (Nat × Nat)} {p q : Params} (h : ParamsLaw p) (read : paramsFrom pairs p = some q) :
    ParamsLaw q := by
  induction pairs generalizing p with
  | nil =>
    obtain rfl := Option.some.inj read
    exact h
  | cons x rest ih =>
    obtain ⟨id, v⟩ := x
    unfold paramsFrom at read
    split at read
    · next ok => exact ih (h.set ok) read
    · cases read

theorem tableOf_at {α : Type} {n : Nat} {l : List α} {t : Table α n} (h : tableOf n l = some t) (i : Fin n) :
    l[i.val]? = some (Table.at t i) := by
  unfold tableOf at h
  split at h
  · next len =>
    obtain rfl := Option.some.inj h
    simp [Table.at, len]
  · cases h

theorem tableOf_mem {α : Type} {n : Nat} {l : List α} {t : Table α n} (h : tableOf n l = some t) (i : Fin n) :
    Table.at t i ∈ l := List.mem_of_getElem? (tableOf_at h i)

theorem risingCues_order {l : List Cue} (h : risingCues l = true) : CuesInOrder l := by
  have chain : (l.map (·.number)).IsChain (· < ·) := by
    induction l with
    | nil => exact .nil
    | cons a rest ih =>
      cases rest with
      | nil => exact .singleton _
      | cons b rest =>
        simp only [risingCues, Bool.and_eq_true, decide_eq_true_eq] at h
        exact .cons_cons h.1 (ih h.2)
  exact List.isChain_iff_pairwise.mp chain

theorem risingChannels_order {l : List Action} (h : risingChannels l = true) : ActionsInOrder l := by
  have chain : (l.map (·.channel)).IsChain (· < ·) := by
    induction l with
    | nil => exact .nil
    | cons a rest ih =>
      cases rest with
      | nil => exact .singleton _
      | cons b rest =>
        simp only [risingChannels, Bool.and_eq_true, decide_eq_true_eq] at h
        exact .cons_cons h.1 (ih h.2)
  exact List.isChain_iff_pairwise.mp chain

theorem readCurve_shape {bytes rest : List Byte} {pts : List Point} (h : readCurve bytes = some (some pts, rest)) :
    shapeOk pts = true := by
  unfold readCurve at h
  split at h
  · cases h
  · cases h
  · split at h
    · cases h
    · split at h
      · cases h
      · split at h
        · next ok =>
          obtain ⟨eq, _⟩ := Prod.mk.inj (Option.some.inj h)
          obtain rfl := Option.some.inj eq
          exact ok
        · cases h

/-- What a cue of an image holds (R190 check 4). -/
theorem readCue_ok {bytes rest : List Byte} {q : Cue} (h : readCue bytes = some (q, rest)) :
    1 ≤ q.number ∧ q.number ≤ 9999 ∧ (∀ t, q.follow = some t → t ≤ 600000) ∧ q.actions ≠ []
      ∧ ActionsInOrder q.actions ∧ ∀ a ∈ q.actions, a.inRange := by
  unfold readCue at h
  split at h
  · dsimp only at h
    split at h
    · cases h
    · next follow hf =>
      split at h
      · cases h
      · next range =>
        split at h
        · cases h
        · next actions more read =>
          split at h
          · next rising =>
            obtain ⟨rfl, _⟩ := Prod.mk.inj (Option.some.inj h)
            obtain ⟨length, each⟩ := readMany_some read
            refine ⟨by dsimp only; omega, by dsimp only; omega, fun t ht => followOf_le hf ht, ?_, risingChannels_order rising, fun a ha => ?_⟩
            · rintro rfl
              simp at length
              omega
            · obtain ⟨before, after, item⟩ := each a ha
              unfold readAction at item
              split at item
              · obtain ⟨b, hb, eq⟩ := Option.map_eq_some_iff.mp item
                obtain ⟨rfl, _⟩ := Prod.mk.inj eq
                exact actionRecordOf_inRange hb
              · cases item
          · cases h
  · cases h

theorem readSlot_inRange {bytes rest : List Byte} {d : ArmDef} (h : readSlot bytes = some (some d, rest)) :
    d.condition.inRange ∧ d.action.inRange := by
  unfold readSlot at h
  split at h
  · dsimp only at h
    split at h
    · cases h
    · split at h
      · split at h <;> cases h
      · split at h
        · obtain ⟨b, hb, eq⟩ := Option.map_eq_some_iff.mp h
          obtain ⟨eq, _⟩ := Prod.mk.inj eq
          obtain rfl := Option.some.inj eq
          exact armDefOf_inRange hb
        · cases h
  · cases h

/-- The show of an image stays within its limits (R190 check 4). -/
theorem Show.ofImage_ok {image : List Byte} {w : Show} (h : Show.ofImage image = some w) : w.Ok := by
  unfold Show.ofImage at h
  split at h
  · cases h
  · split at h
    · next params outs _ hp ho =>
      split at h
      · cases h
      · next curves _ hcurves =>
        split at h
        · cases h
        · split at h
          · cases h
          · split at h
            · cases h
            · next cues _ hcues =>
              split at h
              · next arms harms =>
                split at h
                · next patch table slots hpatch htable hslots =>
                  dsimp only at h
                  split at h
                  · next limits =>
                    obtain rfl := Option.some.inj h
                    simp only [Show.withinLimits, Bool.and_eq_true, decide_eq_true_eq, List.all_eq_true] at limits
                    obtain ⟨⟨⟨⟨points, count⟩, actions⟩, rising⟩, defined⟩ := limits
                    refine ⟨paramsFrom_law paramsLaw_default hp, fun o => ?_, ⟨count, actions, risingCues_order rising,
                      fun q hq => ?_⟩, ⟨points, fun k pts hk => ?_⟩, fun k d hd => ?_, defined⟩
                    · obtain ⟨_, _, item⟩ := (readMany_some ho).2 _ (tableOf_mem hpatch o)
                      unfold readOutput at item
                      split at item
                      · obtain ⟨out, hout, eq⟩ := Option.map_eq_some_iff.mp item
                        obtain ⟨same, _⟩ := Prod.mk.inj eq
                        exact same ▸ outputOf_inRange hout
                      · cases item
                    · obtain ⟨_, _, item⟩ := (readMany_some hcues).2 q hq
                      exact readCue_ok item
                    · obtain ⟨_, _, item⟩ := (readMany_some hcurves).2 _ (tableOf_mem htable k)
                      rw [show Table.at table k = some pts from hk] at item
                      exact readCurve_shape item
                    · obtain ⟨_, _, item⟩ := (readMany_some harms).2 _ (tableOf_mem hslots k)
                      rw [show Table.at slots k = some d from hd] at item
                      exact readSlot_inRange item
                  · cases h
                · cases h
              · cases h
    · cases h

theorem checkBank_ok {m : Memory} {g : Nat} {w : Show} (h : checkBank m = some (g, w)) : w.Ok := by
  unfold checkBank at h
  dsimp only at h
  split at h
  · cases h
  · split at h
    · cases h
    · split at h
      · cases h
      · obtain ⟨x, hx, eq⟩ := Option.map_eq_some_iff.mp h
        obtain ⟨_, rfl⟩ := Prod.mk.inj eq
        exact Show.ofImage_ok hx

end Sys2Proof.Machine
end

section
/-! SUPPORT. Starts and resets, and a part at rest: each leaves a sound state (R28, R84, R116, R128, R148, R188, R191). -/

namespace Sys2Proof.Machine

/-! ## Playback without work -/

/-- No channel holds a fade context, no batch stands, and the player is as after a reset. -/
structure Idle (s : State) : Prop where
  chans : s.fade.chans = FadeEngine.reset.chans
  tags : s.fade.tags = []
  master : s.fade.master = 1000
  masterCtx : s.fade.masterCtx = none
  player : s.player = Player.reset

theorem Idle.chan {s : State} (h : Idle s) (c : Chan) : s.chan c = Channel.reset := by
  rw [State.chan, h.chans]
  exact Table.at_replicate _ _

theorem Idle.holding {s : State} (h : Idle s) (o : Owner) : s.fade.holding o = 0 :=
  FadeEngine.holding_eq_zero fun c x hx => by
    have none := h.chan c
    rw [State.chan] at none
    rw [none] at hx
    cases hx

theorem Idle.playing {s : State} (h : Idle s) : Playing s where
  engine := by
    refine ⟨fun c => ?_, fun e he => ?_, fun e he => ?_, ?_⟩
    · rw [h.chan c]
      exact ⟨Nat.zero_le _, fun l hl => (by cases hl), fun f hf => (by cases hf)⟩
    · rw [h.player] at he
      cases he
    · rw [h.player] at he
      cases he
    · rw [h.player]
      exact .nil _ _
  counts := by
    refine ⟨?_, ?_, ?_⟩
    · rw [h.player]
      refine .nil fun n _ => ?_
      rw [State.owned_eq, h.holding, h.player]
      rfl
    · rw [h.tags]
      refine .nil fun t _ => ?_
      rw [FadeEngine.outstanding, h.holding]
      split <;> rfl
    · rw [h.tags]
      intro x hx
      cases hx
  position := by
    unfold PositionLaw
    rw [h.player]
    decide
  shape := by
    rw [h.player]
    exact ⟨rfl, rfl⟩
  master := by
    rw [FadeEngine.MasterOk, h.master, h.masterCtx]
    exact ⟨le_refl _, fun m hm => by cases hm⟩

/-! ## The default show -/

theorem Show.default_ok : Show.default.Ok where
  params := paramsLaw_default
  patch := by
    unfold PatchLaw
    decide
  cues := by
    refine ⟨by decide, by decide, by decide, fun q hq => ?_⟩
    cases hq
  curves := by
    refine ⟨by decide, fun k pts h => ?_⟩
    rw [show Table.at Show.default.curves k = none from Table.at_replicate _ _] at h
    cases h
  arms k d h := by
    rw [show Table.at Show.default.arms k = none from Table.at_replicate _ _] at h
    cases h
  defined q hq := by cases hq

/-! ## A part at rest -/

/-- Every law of a part that does not run. -/
structure Resting (s : State) : Prop where
  stopped : s.phase ≠ .running
  fade : s.fade = FadeEngine.reset
  player : s.player = Player.reset
  session : s.editor.session = .idle
  report : s.report = ReportUnit.reset
  inbox : s.arm.inbox = []
  reply : s.line.reply = .idle
  rx : s.line.rx = .hunt
  store : s.mem.store = none
  work : s.working.Ok
  chain : ChainLaw s.chain
  inputs : InputLaw s.inputs
  counters : CounterLaw s
  memory : MemoryLaw s.mem
  composed : ∀ o : Fin 40, Table.at s.comp.composed o ≤ 4095

theorem Resting.playing {s : State} (h : Resting s) : Playing s :=
  Idle.playing ⟨by rw [h.fade], by rw [h.fade]; rfl, by rw [h.fade]; rfl, by rw [h.fade]; rfl, h.player⟩

theorem reportLaw_reset : ReportLaw ReportUnit.reset :=
  ⟨by decide, by decide, by decide, by decide, trivial, by decide, by decide⟩

theorem Resting.sound {s : State} (h : Resting s) : Sound s := by
  obtain ⟨⟨park, sched⟩, ⟨freeze, position, player⟩, live, tags⟩ := h.playing.laws
  exact {
    park := park, freeze := freeze, sched := sched, live := live, tags := tags, position := position, player := player
    report := by rw [h.report]; exact reportLaw_reset
    params := h.work.params, patch := h.work.patch, cues := h.work.cues, curves := h.work.curves
    arms := h.work.arms
    session := by unfold SessionLaw; rw [h.session]; trivial
    defined := h.playing.defined h.work.defined, chain := h.chain
    blackout := fun run => absurd run h.stopped
    inputs := h.inputs, counters := h.counters, memory := h.memory, store := storeLaw_of_none h.store
    levels := h.playing.levels h.composed
    atRest := fun _ => ⟨h.fade, h.player, h.session, h.report, h.inbox, h.reply, h.rx, h.store⟩ }

theorem Sound.resting {s : State} (h : Sound s) (stopped : s.phase ≠ .running) : Resting s := by
  obtain ⟨fade, player, session, report, inbox, reply, rx, store⟩ := h.atRest stopped
  obtain ⟨_, _, _, _, _, composed⟩ := h.levels
  exact {
    stopped := stopped, fade := fade, player := player, session := session, report := report, inbox := inbox
    reply := reply, rx := rx, store := store
    work := ⟨h.params, h.patch, h.cues, h.curves, h.arms, h.defined.2.2⟩
    chain := h.chain, inputs := h.inputs, counters := h.counters, memory := h.memory, composed := composed }

/-! ## Starts -/

theorem chainLaw_stopped {bufs : Table Buffer 2} {age skips : Nat} (free : bufs = Vector.replicate 2 Buffer.empty) :
    ChainLaw ⟨bufs, age, skips⟩ := by
  refine chainLaw_of_free fun x => ?_
  rw [Chain.roleOf, free, Table.at_replicate]
  rfl

theorem cold_resting {reason : Reason} {phase : Phase} {pins : Pins} {banks : Table Memory 2} {pending : List Instr}
    {free : Nat} (stopped : phase ≠ .running) (wf : ∀ b : Bank, Memory.wf (Table.at banks b) = true) :
    Resting (State.cold reason phase pins banks pending free) where
  stopped := stopped
  fade := rfl
  player := rfl
  session := rfl
  report := rfl
  inbox := rfl
  reply := rfl
  rx := rfl
  store := rfl
  work := Show.default_ok
  chain := chainLaw_stopped rfl
  inputs i := by
    change Table.at (Vector.replicate 4 none) i = none
      ↔ Table.at (Vector.replicate 4 Level.low) i = Table.at (Vector.replicate 4 Level.low) i
    simp
  counters := ⟨Nat.zero_le _, Nat.zero_le _, Nat.zero_le _⟩
  memory := ⟨wf, rfl⟩
  composed o := by
    change Table.at (Vector.replicate 40 0) o ≤ 4095
    rw [Table.at_replicate]
    exact Nat.zero_le _

/-- Settles O52. -/
theorem resetIsSound : Obligations.ResetIsSound := by
  refine (cold_resting (by decide) fun b => ?_).sound
  rw [Table.at_replicate]
  rfl

theorem coldStart_resting {reason : Reason} {phase : Phase} {s : State} (stopped : phase ≠ .running)
    (h : MemoryLaw s.mem) : Resting (coldStart reason phase s) := by
  obtain ⟨banks, free, abandoned, wf⟩ := abandonStore_eq s
  unfold coldStart
  rw [abandoned]
  exact cold_resting stopped (wf h)

/-! ## WARM and the load at a start -/

theorem inputLaw_sampled (lines : Table Level 4) (sampled : Table Bool 4) :
    InputLaw ⟨lines, Vector.replicate 4 none, lines, sampled⟩ := by
  intro i
  change Table.at (Vector.replicate 4 none) i = none ↔ Table.at lines i = Table.at lines i
  simp

/-- Sampling the lines discards the waits and completes the laws (R128). -/
theorem sampleInputs_operating {s : State} (h : Standing s) : Operating (sampleInputs s) := by
  have sampled : Standing (s.setInputs ⟨s.pins.lines, Vector.replicate 4 none, s.pins.lines, Vector.replicate 4 true⟩) :=
    { h with playing := h.playing.of_same rfl rfl rfl rfl, inputs := inputLaw_sampled _ _ }
  exact sampled.handed

theorem initSlots_operating {s : State} (h : Operating s) : Operating (initSlots s) :=
  h.of_acted (Acted.setArm _ s) (h.runs.of_same rfl rfl rfl rfl)

/-- The blocks that a WARM reset sets anew, before the lines are sampled (R29, R84, R133, R148, R188). -/
def State.warmed (s : State) : State :=
  { s with
    clock := { s.clock with frameTimer := some (s.working.params.framePeriod * 1000) }
    fade := { FadeEngine.reset with snapshot := s.fade.snapshot }
    player := Player.reset
    editor := Editor.reset
    chain := s.chain.stop
    comp := { s.comp with hostBlackout := false }
    arm := { s.arm with inbox := [] }
    line := s.line.warm s.now }

theorem warmStart_eq (s : State) :
    warmStart s = offer (.startup .warm none 0) (initSlots (sampleInputs s.warmed)) := rfl

theorem warmStart_operating {s : State} (h : Operating s) : Operating (warmStart s) := by
  rw [warmStart_eq]
  refine Operating.offer _ (initSlots_operating (sampleInputs_operating ?_))
  unfold State.warmed
  exact {
    phase := h.phase
    playing := Idle.playing ⟨rfl, rfl, rfl, rfl, rfl⟩
    report := h.report
    work := h.work
    session := trivial
    chain := chainLaw_stopped rfl
    inputs := h.inputs
    counters := h.counters
    memory := h.memory
    store := h.store
    composed := h.composed }

theorem takeReset_sound {m : ResetMode} {s : State} (h : Operating s) : Sound (takeReset m s) := by
  cases m with
  | warm => exact (warmStart_operating h).sound
  | cold => exact (coldStart_resting (by decide) h.memory).sound

end Sys2Proof.Machine
end

section
/-! SUPPORT. What the messages of the host do to a running part: every law of its blocks stands after each of them (chapters 2
to 11). -/

namespace Sys2Proof.Machine

/-! ## Changes of one block -/

section

variable {s : State}

theorem Operating.withLine {l : LineUnit} (h : Operating s) (crc : l.crcErrors ≤ 65535) (frames : l.frameErrors ≤ 65535) :
    Operating (s.setLine l) :=
  { h with playing := h.playing.of_same rfl rfl rfl rfl, counters := ⟨h.counters.1, crc, frames⟩ }

/-- A change of the line unit that leaves its counters alone. -/
theorem Operating.withLineSame {l : LineUnit} (h : Operating s) (crc : l.crcErrors = s.line.crcErrors)
    (frames : l.frameErrors = s.line.frameErrors) : Operating (s.setLine l) := by
  obtain ⟨_, crcLaw, framesLaw⟩ := h.counters
  exact h.withLine (crc ▸ crcLaw) (frames ▸ framesLaw)

theorem Operating.withEditor {e : Editor} (h : Operating s) (law : SessionLaw e) : Operating (s.setEditor e) :=
  { h with playing := h.playing.of_same rfl rfl rfl rfl, session := law }

/-- Another working show keeps playback in order while the curves in use stay defined (R13). -/
theorem Playing.withWorking {w : Show} (h : Playing s)
    (fades : ∀ c f, (s.chan c).fade = some f → (w.curve f.curve).isSome)
    (entries : ∀ e ∈ s.player.sched, (w.curve e.curve).isSome) : Playing (s.setWorking w) where
  engine := {
    chans := fun c => by
      have ok := h.engine.chans c
      refine ⟨ok.level, ok.park, fun f hf => ?_⟩
      have old := ok.fade f hf
      exact ⟨old.frozen, old.start, old.target, old.lasts, old.duration, fades c f hf⟩
    entries := fun e he => by
      have old := h.engine.entries e he
      exact ⟨old.target, old.time, old.left, entries e he⟩
    unparked := h.engine.unparked
    order := h.engine.order }
  counts := h.counts.congr (fun _ => rfl) rfl rfl fun _ => rfl
  position := h.position
  shape := h.shape
  master := h.master

theorem Standing.withWorking {w : Show} (h : Standing s) (ok : w.Ok)
    (fades : ∀ c f, (s.chan c).fade = some f → (w.curve f.curve).isSome)
    (entries : ∀ e ∈ s.player.sched, (w.curve e.curve).isSome) : Standing (s.setWorking w) :=
  { h with playing := h.playing.withWorking fades entries, work := ok }

/-- A working show with the same curves. -/
theorem Standing.withSameCurves {w : Show} (h : Standing s) (ok : w.Ok) (curves : w.curves = s.working.curves) :
    Standing (s.setWorking w) :=
  { h with playing := h.playing.of_same rfl rfl rfl curves, work := ok }

theorem Operating.withSameCurves {w : Show} (h : Operating s) (ok : w.Ok) (curves : w.curves = s.working.curves)
    (params : w.params = s.working.params) : Operating (s.setWorking w) where
  toStanding := h.toStanding.withSameCurves ok curves
  blackout := h.blackout.trans (blackoutCondition_congr (t := s.setWorking w) params rfl).symm

end

/-! ## CONFIGURE -/

theorem Params.set_inputs {id v : Nat} {p : Params} (other : ¬ (0x06 ≤ id ∧ id ≤ 0x0D)) :
    (p.set id v).role = p.role ∧ (p.set id v).polarity = p.polarity := by
  unfold Params.set
  split
  all_goals first | exact ⟨rfl, rfl⟩ | omega

theorem restartSilence_operating {s : State} (h : Operating s) : Operating (restartSilence s) := h.withLineSame rfl rfl

theorem applyParam_operating {id v : Nat} {s : State} (ok : paramOk id v = true) (h : Operating s) :
    Operating (applyParam id v s) := by
  have work : Show.Ok { s.working with params := s.working.params.set id v } :=
    { h.work with params := h.work.params.set ok }
  have standing : Standing (s.setWorking { s.working with params := s.working.params.set id v }) :=
    h.toStanding.withSameCurves work rfl
  unfold applyParam
  dsimp only
  split
  · exact standing.handed
  · next other =>
    obtain ⟨role, polarity⟩ := Params.set_inputs (v := v) (p := s.working.params) other
    have condition : (s.setWorking { s.working with params := s.working.params.set id v }).blackoutCondition
        = s.blackoutCondition := by
      unfold State.blackoutCondition State.active
      simp only [State.setWorking_working, State.setWorking_inputs, role, polarity]
    have set : Operating (s.setWorking { s.working with params := s.working.params.set id v }) :=
      ⟨standing, h.blackout.trans condition.symm⟩
    split
    · exact restartSilence_operating set
    · exact set

theorem firstBadPair_none {pairs : List RawPair} (h : firstBadPair pairs = none) :
    ∀ p ∈ pairs, paramOk p.id.toNat p.value.toNat = true := by
  intro p hp
  have none : pairs.findIdx? (fun p => !paramOk p.id.toNat p.value.toNat) = none := by simpa [firstBadPair] using h
  simpa using List.findIdx?_eq_none_iff.mp none p hp

theorem configureOp_operating {pairs : List RawPair} {s : State} (h : Operating s) :
    Operating (configureOp pairs s).1 := by
  unfold configureOp
  split
  · exact h
  · next good =>
    have ok := firstBadPair_none good
    clear good
    dsimp only
    induction pairs generalizing s with
    | nil => exact h
    | cons p rest ih =>
      exact ih (applyParam_operating (ok p (List.mem_cons_self ..)) h) fun q hq => ok q (List.mem_cons_of_mem p hq)

/-! ## The patch table and RESET -/

theorem patchOp_operating {first : Byte} {records : List RawOutput} {s : State} (h : Operating s) :
    Operating (patchOp first records s).1 := by
  unfold patchOp
  dsimp only
  split
  · exact h
  · split
    · exact h
    · next outs read =>
      refine h.withSameCurves ({ h.work with patch := fun o => ?_ }) rfl rfl
      dsimp only
      rw [at_tabulate]
      split
      · cases hx : outs[o.val - (first.toNat - 1)]? with
        | none => exact h.work.patch o
        | some x =>
          have mem : some x ∈ records.map outputOf := by
            rw [allSome_eq_some read]
            exact List.mem_map_of_mem (List.mem_of_getElem? hx)
          obtain ⟨r, _, hr⟩ := List.mem_map.mp mem
          exact outputOf_inRange hr
      · exact h.work.patch o

theorem resetOp_operating {mode : Byte} {s : State} (h : Operating s) : Operating (resetOp mode s).1 := by
  unfold resetOp
  split
  · split
    · exact h
    · exact h.withLineSame rfl rfl
  · split
    · exact h.withLineSame rfl rfl
    · exact h

/-! ## The editor -/

section Editor

variable {s : State}

theorem findCue_mem {n : Nat} {w : Show} {q : Cue} (h : w.findCue n = some q) : q ∈ w.cues ∧ q.number = n :=
  ⟨List.mem_of_find?_eq_some h, by simpa using List.find?_some h⟩

theorem editCueOp_operating {cue : Half} (h : Operating s) : Operating (editCueOp cue s).1 := by
  unfold editCueOp
  dsimp only
  split
  · exact h
  · split
    · exact h
    · next range =>
      split
      · next q found =>
        obtain ⟨mem, number⟩ := findCue_mem found
        obtain ⟨_, _, _, each⟩ := h.work.cues
        obtain ⟨_, _, follow, _, order, ranges⟩ := each q mem
        exact h.withEditor ⟨by omega, by omega, follow, order, ranges⟩
      · exact h.withEditor ⟨by omega, by omega, fun t ht => (by cases ht), List.Pairwise.nil, fun a ha => (by cases ha)⟩

theorem SessionLaw.cue {e : Editor} {n : Nat} {follow : Option Nat} {actions : List Action} (h : SessionLaw e)
    (session : e.session = .cue n follow actions) :
    1 ≤ n ∧ n ≤ 9999 ∧ (∀ t, follow = some t → t ≤ 600000) ∧ ActionsInOrder actions ∧ ∀ a ∈ actions, a.inRange := by
  unfold SessionLaw at h
  rw [session] at h
  exact h

theorem SessionLaw.curve {e : Editor} {id : Nat} {places : List (Option Point)} (h : SessionLaw e)
    (session : e.session = .curve id places) : 1 ≤ id ∧ id ≤ 15 ∧ 2 ≤ places.length ∧ places.length ≤ 32 := by
  unfold SessionLaw at h
  rw [session] at h
  exact h

theorem cueActionsOp_operating {records : List RawAction} (h : Operating s) : Operating (cueActionsOp records s).1 := by
  unfold cueActionsOp
  split
  · next n follow actions session =>
    obtain ⟨lo, hi, follows, order, ranges⟩ := h.session.cue session
    split
    · exact h
    · next edits read =>
      split
      · exact h
      · next distinct =>
        rw [Bool.not_eq_true, Bool.not_eq_false', distinctChannels_iff] at distinct
        obtain ⟨order', mem⟩ := applyEdits order distinct
        refine h.withEditor ⟨lo, hi, follows, order', fun a ha => ?_⟩
        rcases (mem a).mp ha with sent | ⟨old, _⟩
        · have : some (BufferEdit.set a) ∈ records.map editOf := by
            rw [allSome_eq_some read]
            exact List.mem_map_of_mem sent
          obtain ⟨r, _, hr⟩ := List.mem_map.mp this
          exact editOf_inRange hr
        · exact ranges a old
  · exact h
  · exact h

theorem cueFollowOp_operating {follow : Word} (h : Operating s) : Operating (cueFollowOp follow s).1 := by
  unfold cueFollowOp
  split
  · next n old actions session =>
    obtain ⟨lo, hi, _, order, ranges⟩ := h.session.cue session
    split
    · exact h
    · next f read => exact h.withEditor ⟨lo, hi, fun t ht => followOf_le read ht, order, ranges⟩
  · exact h
  · exact h

theorem editCurveOp_operating {id count : Byte} (h : Operating s) : Operating (editCurveOp id count s).1 := by
  unfold editCurveOp
  split
  · exact h
  · split
    · exact h
    · next range =>
      refine h.withEditor ⟨by omega, by omega, ?_, ?_⟩ <;> rw [List.length_replicate] <;> omega

theorem length_writePlaces {places : List (Option Point)} {first : Nat} {points : List Point}
    (fits : first + points.length ≤ places.length) : (writePlaces places first points).length = places.length := by
  simp [writePlaces]
  omega

theorem curvePointsOp_operating {first : Byte} {points : List RawPoint} (h : Operating s) :
    Operating (curvePointsOp first points s).1 := by
  unfold curvePointsOp
  split
  · next id places session =>
    obtain ⟨lo, hi, least, most⟩ := h.session.curve session
    split
    · exact h
    · next pts read =>
      split
      · exact h
      · next fits =>
        have length := length_writePlaces (Nat.le_of_not_lt fits)
        exact h.withEditor ⟨lo, hi, length.symm ▸ least, length.symm ▸ most⟩
  · exact h
  · exact h

theorem closeSession_operating (h : Operating s) : Operating (closeSession s) := h.withEditor trivial

theorem editAbortOp_operating (h : Operating s) : Operating (editAbortOp s).1 := by
  unfold editAbortOp
  split
  · exact h
  · exact closeSession_operating h

theorem commitRefused_operating {st : Status} (h : Operating s) : Operating (commitRefused st s).1 :=
  h.withEditor h.session

/-- The checks of a cue commit, with the size of the cue it replaces (R42). -/
theorem cueCommitCheck_eq (n : Nat) (actions : List Action) (w : Show) : cueCommitCheck n actions w =
    if actions = [] then some .incomplete
    else if actions.any fun a => (w.curve a.curve).isNone then some .notFound
    else if actions.length > w.freeActions + weightAt (·.actions.length) n w.cues then some .noSpace
    else if (w.findCue n).isNone ∧ w.cues.length ≥ 64 then some .noSpace
    else none := by
  have old : weightAt (·.actions.length) n w.cues = ((w.findCue n).map fun q => q.actions.length).getD 0 := rfl
  rw [old]
  unfold cueCommitCheck
  cases w.findCue n <;> rfl

/-- A cue buffer passes the checks of EDIT_COMMIT (R42). -/
theorem cueCommitCheck_none {n : Nat} {actions : List Action} {w : Show} (h : cueCommitCheck n actions w = none) :
    actions ≠ [] ∧ (∀ a ∈ actions, (w.curve a.curve).isSome)
      ∧ actions.length ≤ w.freeActions + weightAt (·.actions.length) n w.cues
      ∧ ¬ ((w.findCue n).isNone = true ∧ w.cues.length ≥ 64) := by
  rw [cueCommitCheck_eq] at h
  split at h
  · cases h
  · next filled =>
    split at h
    · cases h
    · next defined =>
      split at h
      · cases h
      · next room =>
        split at h
        · cases h
        · next place =>
          refine ⟨filled, fun a ha => ?_, Nat.le_of_not_lt room, place⟩
          by_contra none
          exact defined (List.any_eq_true.mpr ⟨a, ha, by simpa using none⟩)

theorem weightAt_one (n : Nat) (w : Show) : weightAt (fun _ => 1) n w.cues = if (w.findCue n).isNone then 0 else 1 := by
  change ((w.findCue n).map fun _ => 1).getD 0 = _
  cases w.findCue n <;> rfl

/-- The cue list after EDIT_COMMIT of a cue stays within its limits (R31, R32, R42, R43). -/
theorem CueListLaw.insert {w : Show} {q : Cue} (h : CueListLaw w)
    (cue : 1 ≤ q.number ∧ q.number ≤ 9999 ∧ (∀ t, q.follow = some t → t ≤ 600000) ∧ q.actions ≠ []
      ∧ ActionsInOrder q.actions ∧ ∀ a ∈ q.actions, a.inRange)
    (room : q.actions.length ≤ w.freeActions + weightAt (·.actions.length) q.number w.cues)
    (place : ¬ ((w.findCue q.number).isNone = true ∧ w.cues.length ≥ 64)) :
    CueListLaw { w with cues := insertCue q w.cues } := by
  obtain ⟨count, used, order, each⟩ := h
  have number := insertCue_weight (fun _ => 1) (q := q) order
  have actions := insertCue_weight (·.actions.length) (q := q) order
  rw [sum_map_one, sum_map_one, weightAt_one] at number
  have total : w.actionsUsed = (w.cues.map (·.actions.length)).sum := rfl
  have free : w.freeActions = 384 - w.actionsUsed := rfl
  refine ⟨?_, ?_, insertCue_order order, fun x hx => ?_⟩
  · change (insertCue q w.cues).length ≤ 64
    split at number
    · next none =>
      have : ¬ w.cues.length ≥ 64 := fun full => place ⟨none, full⟩
      omega
    · omega
  · change ((insertCue q w.cues).map (·.actions.length)).sum ≤ 384
    omega
  · rcases (mem_insertCue order).mp hx with rfl | ⟨old, _⟩
    · exact cue
    · exact each x old

/-- The checks of a curve commit with every place filled, with the size of the curve it replaces (R44). -/
theorem curveCommitCheck_some (k : Fin 15) (pts : List Point) (s : State) :
    curveCommitCheck (k.val + 1) (some pts) s =
      if !shapeOk pts then some .badShape
      else if s.fade.usesCurve (k.val + 1) ∨ s.player.usesCurve (k.val + 1) then some .inUse
      else if pts.length > s.working.freePoints + pointCount (Table.at s.working.curves k) then some .noSpace
      else none := by
  rw [← Show.curve_user]
  unfold curveCommitCheck
  cases s.working.curve (k.val + 1) <;> rfl

/-- A curve buffer passes the checks of EDIT_COMMIT (R44). -/
theorem curveCommitCheck_none {k : Fin 15} {points : Option (List Point)} {s : State}
    (h : curveCommitCheck (k.val + 1) points s = none) :
    ∃ pts, points = some pts ∧ shapeOk pts = true ∧ s.fade.usesCurve (k.val + 1) = false
      ∧ s.player.usesCurve (k.val + 1) = false
      ∧ pts.length ≤ s.working.freePoints + pointCount (Table.at s.working.curves k) := by
  cases points with
  | none => cases h
  | some pts =>
    rw [curveCommitCheck_some] at h
    split at h
    · cases h
    · next shape =>
      split at h
      · cases h
      · next free =>
        split at h
        · cases h
        · next room =>
          rw [not_or, Bool.not_eq_true, Bool.not_eq_true] at free
          exact ⟨pts, rfl, by simpa using shape, free.1, free.2, Nat.le_of_not_lt room⟩

theorem usesCurve_false {id : Nat} {f : FadeEngine} (h : f.usesCurve id = false) {c : Chan} {x : Fade}
    (hx : (Table.at f.chans c).fade = some x) : x.curve ≠ id := by
  have := List.any_eq_false.mp h _ (Table.mem_entries.mpr ⟨c, rfl⟩)
  rw [hx] at this
  simpa using this

theorem usesCurve_sched_false {id : Nat} {p : Player} (h : p.usesCurve id = false) {e : Sched} (he : e ∈ p.sched) :
    e.curve ≠ id := by simpa using List.any_eq_false.mp h e he

theorem cuesUseCurve_false {id : Nat} {w : Show} (h : w.cuesUseCurve id = false) {q : Cue} (hq : q ∈ w.cues) {a : Action}
    (ha : a ∈ q.actions) : a.curve ≠ id := by
  have := List.any_eq_false.mp h q hq
  rw [Bool.not_eq_true] at this
  simpa using List.any_eq_false.mp this a ha

/-- A curve table with one entry replaced: cues keep their curves if the new entry is defined or no cue names it. -/
theorem Show.Ok.putCurve {w : Show} {k : Fin 15} {c : Option (List Point)} (h : w.Ok)
    (shape : ∀ pts, c = some pts → shapeOk pts = true)
    (room : w.pointsUsed + pointCount c ≤ 240 + pointCount (Table.at w.curves k))
    (kept : c.isSome = true ∨ w.cuesUseCurve (k.val + 1) = false) :
    Show.Ok { w with curves := Table.put w.curves k c } :=
  { h with
    curves := h.curves.put shape room
    defined := fun q hq a ha => by
      rw [Show.curve_put]
      split
      · next same => exact kept.resolve_right fun unused => cuesUseCurve_false unused hq ha same
      · exact h.defined q hq a ha }

/-- A curve that no fade and no scheduled start names may be replaced (R13, R44, R47). -/
theorem Operating.putCurve {k : Fin 15} {c : Option (List Point)} (h : Operating s)
    (work : Show.Ok { s.working with curves := Table.put s.working.curves k c })
    (fades : s.fade.usesCurve (k.val + 1) = false) (entries : s.player.usesCurve (k.val + 1) = false) :
    Operating (s.setWorking { s.working with curves := Table.put s.working.curves k c }) where
  toStanding := by
    refine h.toStanding.withWorking work (fun d f hf => ?_) fun e he => ?_
    · rw [Show.curve_put, if_neg (usesCurve_false fades hf)]
      exact ((h.playing.engine.chans d).fade f hf).curve
    · rw [Show.curve_put, if_neg (usesCurve_sched_false entries he)]
      exact (h.playing.engine.entries e he).curve
  blackout := h.blackout

theorem editCommitOp_operating (h : Operating s) : Operating (editCommitOp s).1 := by
  unfold editCommitOp
  split
  · exact h
  · next n follow actions session =>
    split
    · exact commitRefused_operating h
    · next passed =>
      obtain ⟨lo, hi, follows, order, ranges⟩ := h.session.cue session
      obtain ⟨filled, defined, room, place⟩ := cueCommitCheck_none passed
      have cues := h.work.cues.insert (q := ⟨n, follow, actions⟩) ⟨lo, hi, follows, filled, order, ranges⟩ room place
      have work : Show.Ok { s.working with cues := insertCue ⟨n, follow, actions⟩ s.working.cues } :=
        { h.work with
          cues := cues
          defined := fun q hq a ha => by
            obtain ⟨_, _, cuesOrder, _⟩ := h.work.cues
            rcases (mem_insertCue cuesOrder).mp hq with rfl | ⟨old, _⟩
            · exact defined a ha
            · exact h.work.defined q old a ha }
      exact closeSession_operating (h.withSameCurves work rfl rfl)
  · next id places session =>
    split
    · exact commitRefused_operating h
    · next passed =>
      obtain ⟨lo, hi, _⟩ := h.session.curve session
      obtain ⟨k, rfl⟩ := curveId lo hi
      obtain ⟨pts, read, shape, fades, entries, room⟩ := curveCommitCheck_none passed
      rw [read]
      dsimp only
      rw [Show.setCurve_eq]
      have free : s.working.freePoints = 240 - s.working.pointsUsed := rfl
      have used := h.work.curves.1
      have count : pointCount (some pts) = pts.length := rfl
      refine closeSession_operating (h.putCurve (h.work.putCurve (fun p hp => ?_) (by omega) (.inl rfl)) fades entries)
      obtain rfl := Option.some.inj hp
      exact shape

theorem deleteCueOp_operating {cue : Half} (h : Operating s) : Operating (deleteCueOp cue s).1 := by
  unfold deleteCueOp
  dsimp only
  split
  · exact h
  · split
    · exact h
    · obtain ⟨count, used, order, each⟩ := h.work.cues
      have length := removeCue_weight (fun _ => 1) (n := cue.toNat) order
      have actions := removeCue_weight (·.actions.length) (n := cue.toNat) order
      rw [sum_map_one, sum_map_one] at length
      have total : s.working.actionsUsed = (s.working.cues.map (·.actions.length)).sum := rfl
      have sub := List.filter_sublist (p := fun q : Cue => q.number != cue.toNat) (l := s.working.cues)
      have work : Show.Ok { s.working with cues := s.working.cues.filter fun q => q.number != cue.toNat } :=
        { h.work with
          cues := by
            refine ⟨(by omega : (s.working.cues.filter fun q => q.number != cue.toNat).length ≤ 64), ?_,
              order.sublist (sub.map _), fun q hq => each q (sub.subset hq)⟩
            change ((s.working.cues.filter fun q => q.number != cue.toNat).map (·.actions.length)).sum ≤ 384
            omega
          defined := fun q hq => h.work.defined q (sub.subset hq) }
      exact h.withSameCurves work rfl rfl

theorem dropCurveOp_operating {id : Byte} (h : Operating s) : Operating (dropCurveOp id s).1 := by
  unfold dropCurveOp
  dsimp only
  split
  · exact h
  · next range =>
    obtain ⟨k, hk⟩ := curveId (id := id.toNat) (by omega) (by omega)
    rw [hk]
    split
    · exact h
    · split
      · exact h
      · next unused =>
        rw [not_or, not_or, Bool.not_eq_true, Bool.not_eq_true, Bool.not_eq_true] at unused
        obtain ⟨fades, entries, cues⟩ := unused
        have used := h.work.curves.1
        have none : pointCount Option.none = 0 := rfl
        rw [Show.setCurve_eq]
        exact h.putCurve (h.work.putCurve (fun p hp => (by cases hp)) (by omega) (.inr cues)) fades entries

end Editor

end Sys2Proof.Machine
end

section
/-! SUPPORT. What frames and characters of the line do to a running part: the messages of the player, of direct control, of the
arm monitor and of show memory, and the line interface itself (chapters 3 to 5 and 8 to 10). -/

namespace Sys2Proof.Machine

section

variable {s : State}

/-! ## The messages that read -/

theorem readConfigOp_fst (first count : Byte) (s : State) : (readConfigOp first count s).1 = s := by
  unfold readConfigOp
  dsimp only
  split <;> rfl

theorem readPatchOp_fst (first count : Byte) (s : State) : (readPatchOp first count s).1 = s := by
  unfold readPatchOp
  dsimp only
  split <;> rfl

theorem readCueOp_fst (cue : Half) (first : Byte) (s : State) : (readCueOp cue first s).1 = s := by
  unfold readCueOp
  dsimp only
  split
  · rfl
  · split
    · rfl
    · split <;> rfl

theorem readCurveOp_fst (id first : Byte) (s : State) : (readCurveOp id first s).1 = s := by
  unfold readCurveOp
  split
  · rfl
  · split
    · rfl
    · split <;> rfl

theorem listCuesOp_fst (after : Half) (s : State) : (listCuesOp after s).1 = s := by
  unfold listCuesOp
  split <;> rfl

theorem readPlayerOp_fst (part first : Byte) (s : State) : (readPlayerOp part first s).1 = s := by
  unfold readPlayerOp
  dsimp only
  split
  · split <;> rfl
  · split
    · split <;> rfl
    · rfl

theorem readChannelsOp_fst (first count : Byte) (s : State) : (readChannelsOp first count s).1 = s := by
  unfold readChannelsOp
  dsimp only
  split <;> rfl

theorem readArmOp_fst (slot : Byte) (s : State) : (readArmOp slot s).1 = s := by
  unfold readArmOp
  split <;> rfl

/-! ## The player and direct control -/

theorem goOp_fst (k : GoKind) (source : Source) (s : State) : (goOp k source s).1 = (goRequest k source s).1 := by
  unfold goOp
  split <;> next e => rw [e]

theorem pauseOp_fst (s : State) : (pauseOp s).1 = (pauseRequest s).1 := by
  unfold pauseOp
  split <;> next e => rw [e]

theorem resumeOp_fst (s : State) : (resumeOp s).1 = (resumeRequest s).1 := by
  unfold resumeOp
  split <;> next e => rw [e]

theorem fadeOp_fst (mask : ChanMask) (target : Half) (time : Word) (curve tag : Byte) (s : State) :
    (fadeOp mask target time curve tag s).1
      = (fadeRequest mask target.toNat time.toNat curve.toNat tag.toNat s).1 := by
  unfold fadeOp
  split <;> next e => rw [e]

theorem setMasterOp_fst (level time : Half) (s : State) :
    (setMasterOp level time s).1 = (masterRequest level.toNat time.toNat s).1 := by
  unfold setMasterOp
  split <;> next e => rw [e]

theorem goOp_operating {k : GoKind} {source : Source} (h : Operating s) : Operating (goOp k source s).1 := by
  rw [goOp_fst]
  exact h.of_played (goRequest_played k source s) (goRequest_playing h.work.plays.cues h.playing)

theorem pauseOp_operating (h : Operating s) : Operating (pauseOp s).1 := by
  rw [pauseOp_fst]
  exact h.of_played (pauseRequest_played s) (pauseRequest_playing h.playing)

theorem resumeOp_operating (h : Operating s) : Operating (resumeOp s).1 := by
  rw [resumeOp_fst]
  exact h.of_played (resumeRequest_played s) (resumeRequest_playing h.playing)

theorem releaseOp_operating {time : Half} (h : Operating s) : Operating (releaseOp time s).1 := by
  unfold releaseOp
  split
  · exact h
  · have played := releaseNow_played time.toNat s
    have playing := releaseNow_playing (time := time.toNat) (by omega) h.playing
    generalize releaseNow time.toNat s = r at played playing ⊢
    exact h.of_played played playing

theorem fadeOp_operating {mask : ChanMask} {target : Half} {time : Word} {curve tag : Byte} (h : Operating s) :
    Operating (fadeOp mask target time curve tag s).1 := by
  rw [fadeOp_fst]
  exact h.of_played (fadeRequest_played _ _ _ _ _ s) (fadeRequest_playing h.playing)

theorem parkOp_operating {mask : ChanMask} {level : Half} (h : Operating s) : Operating (parkOp mask level s).1 := by
  unfold parkOp
  split
  · exact h
  · exact h.of_played (parkNow_played mask level.toNat s) (parkNow_playing (by omega) h.playing)

theorem unparkOp_operating {mask : ChanMask} (h : Operating s) : Operating (unparkOp mask s).1 := by
  unfold unparkOp
  split
  · exact h
  · exact h.of_played (unparkNow_played mask s) (unparkNow_playing h.playing)

theorem setMasterOp_operating {level time : Half} (h : Operating s) : Operating (setMasterOp level time s).1 := by
  rw [setMasterOp_fst]
  exact h.of_played (masterRequest_played _ _ s) (masterRequest_playing h.playing)

theorem setBlackoutOp_operating {state : Byte} (h : Operating s) : Operating (setBlackoutOp state s).1 := by
  unfold setBlackoutOp
  split
  · exact h
  · exact { h with playing := h.playing.of_same rfl rfl rfl rfl }

/-! ## The arm monitor, the report unit and show memory -/

theorem Operating.putSlot {k : Fin 8} {d : Option ArmDef} {a : ArmMonitor} (h : Operating s)
    (range : ∀ x, d = some x → x.condition.inRange ∧ x.action.inRange) : Operating ((s.putSlot k d).setArm a) := by
  have work : Show.Ok { s.working with arms := Table.put s.working.arms k d } := h.work.of_arms fun j x hx => by
    change Table.at (Table.put s.working.arms k d) j = some x at hx
    rw [Table.at_put] at hx
    split at hx
    · exact range x hx
    · exact h.work.arms j x hx
  have put : Operating (s.putSlot k d) := h.withSameCurves work rfl rfl
  exact put.of_acted (Acted.setArm a _) (put.runs.of_same rfl rfl rfl rfl)

theorem armOp_operating {slot mode : Byte} {condition action : List Byte} (h : Operating s) :
    Operating (armOp slot mode condition action s).1 := by
  unfold armOp
  split
  · next k d hk hd =>
    refine h.putSlot fun x hx => ?_
    obtain rfl := Option.some.inj hx
    exact armDefOf_inRange hd
  · exact h

theorem disarmOp_operating {slot : Byte} (h : Operating s) : Operating (disarmOp slot s).1 := by
  unfold disarmOp
  split
  · exact h
  · exact h.putSlot fun x hx => by cases hx

theorem pollOp_operating {ack : Byte} (h : Operating s) : Operating (pollOp ack s).1 := by
  unfold pollOp
  exact { h with
    playing := h.playing.of_same rfl rfl rfl rfl
    report := ReportUnit.carry_law (ReportUnit.settle_law h.report) }

theorem storeShowOp_operating (h : Operating s) : Operating (storeShowOp s).1 := by
  unfold storeShowOp
  split
  · exact h
  · split
    · exact h
    · exact acceptStore_operating h

/-- The checks of LOAD_SHOW change bank records alone, and the bank they find holds a show within its limits (R201). -/
theorem findShow_ok {b : Bank} {g : Nat} {w : Show} (h : (findShow s).2 = some (b, g, w)) : w.Ok := by
  unfold findShow at h
  split at h
  · cases h
  · split at h
    · next passed =>
      obtain ⟨_, eq⟩ := Prod.mk.inj (Option.some.inj h)
      obtain ⟨_, rfl⟩ := Prod.mk.inj eq
      exact checkBank_ok passed
    · dsimp only at h
      split at h
      · cases h
      · split at h
        · next passed =>
          obtain ⟨_, eq⟩ := Prod.mk.inj (Option.some.inj h)
          obtain ⟨_, rfl⟩ := Prod.mk.inj eq
          exact checkBank_ok passed
        · cases h

theorem anyFade_false (h : s.fade.anyFade = false) (c : Chan) : (s.chan c).fade = none := by
  have := List.any_eq_false.mp h _ (Table.mem_entries.mpr ⟨c, rfl⟩)
  rw [State.chan]
  simpa using this

theorem loadable_true (h : s.loadable = true) : s.player.state = .stopped ∧ s.player.sched = []
    ∧ s.editor.session = .idle ∧ s.fade.anyFade = false := by
  simp only [State.loadable, Bool.and_eq_true, decide_eq_true_eq, Bool.not_eq_eq_eq_not, Bool.not_true] at h
  obtain ⟨⟨stopped, idle, session⟩, quiet⟩ := h
  exact ⟨stopped, idle, session, quiet⟩

theorem takeShow_operating {w : Show} (h : Operating s) (ok : w.Ok) (quiet : s.fade.anyFade = false)
    (idle : s.player.sched = []) : Operating (takeShow w s) := by
  have loaded : Standing (s.setWorking w) := h.toStanding.withWorking ok
    (fun c f hf => by rw [anyFade_false quiet c] at hf; cases hf) (fun e he => by rw [idle] at he; cases he)
  exact initSlots_operating (restartSilence_operating loaded.handed)

theorem loadShowOp_operating (h : Operating s) : Operating (loadShowOp s).1 := by
  unfold loadShowOp
  split
  · exact h
  · next free =>
    have noStore : s.mem.store = none := by simpa using free
    have recsKept (recs : Table (Option Nat) 2) : Operating (s.setMem { s.mem with recs := recs }) :=
      h.withMem (free := s.free) h.memory (storeLaw_of_none noStore)
    split
    · exact h
    · next loadable =>
      obtain ⟨_, idle, _, quiet⟩ := loadable_true (by simpa using loadable)
      split
      · exact recsKept _
      · next recs b g w found =>
        exact takeShow_operating (recsKept recs) (findShow_ok (by rw [found])) quiet idle

theorem runMessage_operating {via : Via} {m : Message} (h : Operating s) : Operating (runMessage via m s).1 := by
  cases m with
  | identify => exact h
  | readStatus => exact h
  | configure pairs => exact configureOp_operating h
  | readConfig first count => exact (readConfigOp_fst first count s).symm ▸ h
  | patch first records => exact patchOp_operating h
  | readPatch first count => exact (readPatchOp_fst first count s).symm ▸ h
  | reset mode => exact resetOp_operating h
  | editCurve id count => exact editCurveOp_operating h
  | curvePoints first points => exact curvePointsOp_operating h
  | editCue cue => exact editCueOp_operating h
  | cueActions records => exact cueActionsOp_operating h
  | cueFollow follow => exact cueFollowOp_operating h
  | editCommit => exact editCommitOp_operating h
  | editAbort => exact editAbortOp_operating h
  | deleteCue cue => exact deleteCueOp_operating h
  | dropCurve id => exact dropCurveOp_operating h
  | readCue cue first => exact (readCueOp_fst cue first s).symm ▸ h
  | readCurve id first => exact (readCurveOp_fst id first s).symm ▸ h
  | listCues after => exact (listCuesOp_fst after s).symm ▸ h
  | go => exact goOp_operating h
  | goTo cue => exact goOp_operating h
  | back => exact goOp_operating h
  | pause => exact pauseOp_operating h
  | resume => exact resumeOp_operating h
  | release time => exact releaseOp_operating h
  | readPlayer part first => exact (readPlayerOp_fst part first s).symm ▸ h
  | fade mask target time curve tag => exact fadeOp_operating h
  | park mask level => exact parkOp_operating h
  | unpark mask => exact unparkOp_operating h
  | setMaster level time => exact setMasterOp_operating h
  | setBlackout state => exact setBlackoutOp_operating h
  | readChannels first count => exact (readChannelsOp_fst first count s).symm ▸ h
  | arm slot mode condition action => exact armOp_operating h
  | disarm slot => exact disarmOp_operating h
  | readArm slot => exact (readArmOp_fst slot s).symm ▸ h
  | poll ack => exact pollOp_operating h
  | storeShow => exact storeShowOp_operating h
  | loadShow => exact loadShowOp_operating h
  | readMemory => exact h

end

end Sys2Proof.Machine
end

section
/-! SUPPORT. The line interface, the passing of time and the step: each keeps every law, and with it the obligations on what a
step keeps (chapters 1, 9 and 10). -/

namespace Sys2Proof.Machine

section

variable {s : State}

/-! ## Silence -/

theorem noteTaken_operating (h : Operating s) : Operating (noteTaken s) := by
  unfold noteTaken
  split
  · exact restartSilence_operating h
  · exact restartSilence_operating (Operating.offer _ (h.withLineSame rfl rfl))

theorem silenceAction_operating (h : Operating s) : Operating (silenceAction s).1 := by
  unfold silenceAction
  split
  · exact h
  · split
    · exact h
    · have acted := h.of_played (goRequest_played (.goTo s.working.params.safeCue) .silence s)
        (goRequest_playing h.work.plays.cues h.playing)
      split <;> next e => rwa [e] at acted

theorem expireSilence_operating (h : Operating s) : Operating (expireSilence s) := by
  have silent : Operating (s.setLine { s.line with silence := .silent 0 }) := h.withLineSame rfl rfl
  exact Operating.offer _ (silenceAction_operating silent)

/-! ## Frames -/

theorem queueReply_operating {seq kind : Byte} {payload : List Byte} (h : Operating s) :
    Operating (queueReply seq kind payload s) := h.withLineSame rfl rfl

theorem answer_operating {seq kind : Byte} {r : Resp} (h : Operating s) : Operating (answer seq kind r s) :=
  (queueReply_operating h).withLineSame rfl rfl

theorem takeNode_operating {f : FrameIn} (h : Operating s) : Operating (takeNode f s) := by
  unfold takeNode
  split
  · exact queueReply_operating h
  · split
    · exact answer_operating h
    · exact answer_operating (runMessage_operating h)

theorem takeGroup_operating {f : FrameIn} (h : Operating s) : Operating (takeGroup f s) := by
  have filtered (filter : Option (Byte × Byte)) : Operating (s.setLine { s.line with filter := filter }) :=
    h.withLineSame rfl rfl
  unfold takeGroup
  split
  · exact h
  · dsimp only
    split
    · split
      · exact filtered _
      · exact runMessage_operating (filtered _)
    · exact filtered _

theorem judgeFrame_operating {f : FrameIn} (h : Operating s) : Operating (judgeFrame f s) := by
  unfold judgeFrame
  split
  · exact h
  · exact takeNode_operating (noteTaken_operating h)
  · exact takeGroup_operating (noteTaken_operating h)

theorem discardFrame_operating (h : Operating s) : Operating (discardFrame s) :=
  h.withLine h.counters.2.1 (Nat.min_le_left _ _)

theorem frameEnds_operating (h : Operating s) : Operating (frameEnds s) := by
  have dropped : Operating (dropPartial s) := by
    unfold dropPartial
    split
    · exact h
    · exact discardFrame_operating h
  exact dropped.withLineSame rfl rfl

/-! ## Characters -/

theorem checkFrame_operating {bytes : List Byte} (h : Operating s) : Operating (checkFrame bytes s) := by
  have hunt : Operating (s.setLine { s.line with rx := .hunt }) := h.withLineSame rfl rfl
  unfold checkFrame
  dsimp only
  split
  · exact hunt.withLine (Nat.min_le_left _ _) h.counters.2.2
  · split
    · split
      · exact judgeFrame_operating hunt
      · exact hunt
    · exact hunt

theorem huntCharacter_operating {b : Byte} {framing : Bool} (h : Operating s) :
    Operating (huntCharacter b framing s) := by
  unfold huntCharacter
  split
  · exact h.withLineSame rfl rfl
  · exact h

theorem addCharacter_operating {held : List Byte} {b : Byte} (h : Operating s) : Operating (addCharacter held b s) := by
  unfold addCharacter
  dsimp only
  split
  · split
    · exact discardFrame_operating h
    · split
      · exact checkFrame_operating h
      · exact h.withLineSame rfl rfl
  · exact h.withLineSame rfl rfl

theorem assemble_operating {b : Byte} {framing : Bool} (h : Operating s) : Operating (assemble b framing s) := by
  have counted : Operating (s.setLine { s.line with rxAge := 0 }) := h.withLineSame rfl rfl
  unfold assemble
  dsimp only
  split
  · exact huntCharacter_operating counted
  · split
    · exact huntCharacter_operating (discardFrame_operating counted)
    · split
      · exact discardFrame_operating counted
      · exact addCharacter_operating counted

/-- A reset that what arrives on RXD sets off leaves a sound part, and else the part runs on (R172, R183). -/
theorem hear_some {x : Heard} (h : Operating s) (heard : hear s = some x) :
    (x.lost = true ∧ Sound x.state) ∨ (x.lost = false ∧ Operating x.state) := by
  unfold hear at heard
  rw [if_neg (fun stopped => stopped h.phase)] at heard
  split at heard
  · obtain rfl := Option.some.inj heard
    exact .inr ⟨rfl, h⟩
  · cases heard
  · have idle : Operating (s.setLine { s.line with reply := .idle }) := h.withLineSame rfl rfl
    dsimp only at heard
    split at heard
    · obtain rfl := Option.some.inj heard
      exact .inl ⟨rfl, takeReset_sound idle⟩
    · obtain rfl := Option.some.inj heard
      exact .inr ⟨rfl, idle⟩

theorem hear_of_stopped (stopped : s.phase ≠ .running) : hear s = none := if_pos stopped

theorem frameArrives_sound {hdr : Hdr} {m : Message} (h : Sound s) : Sound (frameArrives hdr m s) := by
  unfold frameArrives
  by_cases run : s.phase = .running
  · cases heard : hear s with
    | none => exact h
    | some x =>
      rcases hear_some (h.operating run) heard with ⟨lost, sound⟩ | ⟨kept, operating⟩
      · dsimp only
        rwa [lost, if_pos rfl]
      · dsimp only
        rw [kept, if_neg Bool.false_ne_true]
        exact (judgeFrame_operating (frameEnds_operating operating)).sound
  · rwa [hear_of_stopped run]

theorem receive_sound {b : Byte} {framing : Bool} (h : Sound s) : Sound (receive b framing s) := by
  unfold receive
  by_cases run : s.phase = .running
  · cases heard : hear s with
    | none => exact h
    | some x =>
      rcases hear_some (h.operating run) heard with ⟨lost, sound⟩ | ⟨kept, operating⟩
      · dsimp only
        rwa [lost, if_pos rfl]
      · dsimp only
        rw [kept, if_neg Bool.false_ne_true]
        exact (assemble_operating operating).sound
  · rwa [hear_of_stopped run]

theorem startReply_operating (h : Operating s) : Operating (startReply s) := by
  unfold startReply
  split
  · split
    · exact h.withLineSame rfl rfl
    · exact h
  · exact h
  · exact h

theorem endReply_sound (h : Operating s) : Sound (endReply s) := by
  have ended : Operating (s.setLine { s.line with reply := .idle, rx := .hunt }) := h.withLineSame rfl rfl
  unfold endReply
  split
  · split
    · dsimp only
      split
      · exact takeReset_sound ended
      · exact ended.sound
    · exact h.sound
  · exact h.sound
  · exact h.sound

/-! ## Power, reset and the load at a start -/

theorem applyPower_sound {addr : BitVec 6} {rate : BitVec 2} (h : Sound s) : Sound (applyPower addr rate s) := by
  unfold applyPower
  refine (coldStart_resting (s := setStraps addr rate s) ?_ h.memory).sound
  split <;> decide

theorem losePower_sound (h : Sound s) : Sound (losePower s) := (coldStart_resting (by decide) h.memory).sound

/-- The pins matter to no law. -/
theorem setPins_sound {p : Pins} (h : Sound s) : Sound (s.setPins p) :=
  ⟨h.park, h.freeze, h.sched, h.live, h.tags, h.position, h.player, h.report, h.params, h.patch, h.cues, h.curves,
    h.arms, h.session, h.defined, h.chain, h.blackout, h.inputs, h.counters, h.memory, h.store, h.levels, h.atRest⟩

theorem pullReset_sound {addr : BitVec 6} {rate : BitVec 2} (h : Sound s) : Sound (pullReset addr rate s) := by
  unfold pullReset
  dsimp only
  split
  · exact setPins_sound (setPins_sound h)
  · exact Resting.sound (coldStart_resting (s := (setStraps addr rate s).setPins
      { (setStraps addr rate s).pins with rstLow := true }) (by decide) h.memory)

theorem releaseReset_sound (h : Sound s) : Sound (releaseReset s) := by
  have pins : Sound (s.setPins { s.pins with rstLow := false }) := setPins_sound h
  unfold releaseReset
  dsimp only
  split
  · next held =>
    have stopped : s.phase ≠ .running := fun run => by cases held.symm.trans run
    exact Resting.sound { h.resting stopped with stopped := by simp }
  · exact pins

theorem startShow_ok {recs : Table (Option Nat) 2} {images : Table (Option (Nat × Show)) 2}
    (ok : ∀ b g w, Table.at images b = some (g, w) → w.Ok) : (startShow recs images).Ok := by
  unfold startShow
  split
  · split
    · next w found => exact ok _ _ _ found
    · exact Show.default_ok
  · exact Show.default_ok

/-- The checks of the two banks at a start (R190, R191). -/
def State.checks (s : State) : Table (Option (Nat × Show)) 2 := tabulate fun b => checkBank (s.bank b)

/-- The bank records after the checks (R191). -/
def State.checkedRecs (s : State) : Table (Option Nat) 2 := tabulate fun b => (Table.at s.checks b).map Prod.fst

/-- The blocks that the load at a start sets, before the lines are sampled (R5, R140, R191). -/
def State.loaded (s : State) : State :=
  let w := startShow s.checkedRecs s.checks
  { s with
    phase := .running
    clock := { s.clock with frameTimer := some (w.params.framePeriod * 1000) }
    working := w
    pwm := { s.pwm with timer := some ⟨pwmPeriod w.params.pwmFrequency, pwmPeriod w.params.pwmFrequency⟩ }
    mem := { s.mem with recs := s.checkedRecs } }

theorem loadAtStart_eq (s : State) : loadAtStart s
    = offer (.startup s.line.lastStart ((newestBank s.checkedRecs).map Prod.fst)
        (((newestBank s.checkedRecs).map Prod.snd).getD 0))
      (initSlots (restartSilence (sampleInputs s.loaded))) := by
  unfold loadAtStart State.loaded State.checkedRecs State.checks
  dsimp only
  generalize (tabulate fun b => checkBank (s.bank b)) = images
  generalize (tabulate fun b => (Table.at images b).map Prod.fst) = recs
  generalize startShow recs images = w
  cases newestBank recs <;> rfl

theorem loadAtStart_operating (h : Sound s) (loading : s.phase = .loading) : Operating (loadAtStart s) := by
  have resting := h.resting (by rw [loading]; decide)
  have work : (startShow s.checkedRecs s.checks).Ok := startShow_ok fun b g w found => by
    rw [State.checks, at_tabulate] at found
    exact checkBank_ok found
  rw [loadAtStart_eq]
  refine Operating.offer _ (initSlots_operating (restartSilence_operating (sampleInputs_operating ?_)))
  have player : s.loaded.player = Player.reset := resting.player
  have fade : s.loaded.fade = FadeEngine.reset := resting.fade
  exact {
    phase := rfl
    playing := Idle.playing ⟨by rw [fade], by rw [fade]; rfl, by rw [fade]; rfl, by rw [fade]; rfl, player⟩
    report := h.report
    work := work
    session := h.session
    chain := h.chain
    inputs := h.inputs
    counters := h.counters
    memory := h.memory
    store := storeLaw_of_none resting.store
    composed := resting.composed }

/-! ## The passing of time -/

theorem since_succ {now t : Time} (h : since now t < 4294967295) : since (now + 1) t = since now t + 1 := by
  unfold since at h ⊢
  bv_omega

/-- Time that passes while no scheduled start is due keeps their order (R63, R64). -/
theorem SchedOrder.tick {paused : Bool} {now : Time} {l : List Sched} (h : SchedOrder paused now l)
    (pending : paused = false → ∀ e ∈ l, 1 ≤ e.left.leftAt now) (bound : ∀ e ∈ l, e.left.remaining ≤ 60000) :
    SchedOrder paused (now + 1) l := by
  cases paused with
  | true => exact h
  | false =>
    obtain ⟨nodup, overdue, order⟩ := h
    have later : ∀ e ∈ l, since (now + 1) e.left.lastAdvance = since now e.left.lastAdvance + 1 := fun e he => by
      have := overdue e he
      have := bound e he
      exact since_succ (by omega)
    refine ⟨nodup, fun e he => ?_, order.imp_of_mem fun {a b} ha hb le => ?_⟩
    · have := pending rfl e he
      unfold Countdown.leftAt at this
      rw [later e he]
      omega
    · unfold Countdown.leftAt at le ⊢
      rw [later a ha, later b hb]
      omega

theorem Playing.atInstant {t : State} (h : Playing s) (fade : t.fade = s.fade) (player : t.player = s.player)
    (working : t.working = s.working)
    (order : SchedOrder (decide (s.player.state = .paused)) t.now s.player.sched) : Playing t where
  engine := by
    refine ⟨fun c => ?_, fun e he => ?_, fun e he => ?_, ?_⟩
    · rw [State.chan, fade, working, player]
      exact h.engine.chans c
    · rw [player] at he
      rw [working]
      exact h.engine.entries e he
    · rw [player] at he
      rw [State.chan, fade]
      exact h.engine.unparked e he
    · rw [player]
      exact order
  counts := h.counts.congr (fun o => by rw [fade]) (by rw [fade]) (by rw [player]) fun n => by rw [player]
  position := by
    unfold PositionLaw
    rw [player]
    exact h.position
  shape := by
    rw [player]
    exact h.shape
  master := by
    rw [fade]
    exact h.master

theorem schedDue_none (h : s.schedDue = none) (order : SchedOrder (decide (s.player.state = .paused)) s.now s.player.sched)
    (running : s.player.state ≠ .paused) : ∀ e ∈ s.player.sched, 1 ≤ e.left.leftAt s.now := by
  obtain ⟨_, sorted⟩ := order
  rw [decide_eq_false running] at sorted
  obtain ⟨_, sorted⟩ := sorted
  unfold State.schedDue at h
  split at h
  · next x rest hl =>
    split at h
    · cases h
    · next early =>
      have first : 1 ≤ x.left.leftAt s.now := by
        have : ¬ x.left.leftAt s.now = 0 := fun zero => early ⟨running, zero⟩
        omega
      rw [hl] at sorted ⊢
      intro e he
      rcases List.mem_cons.mp he with rfl | he
      · exact first
      · exact first.trans ((List.pairwise_cons.mp sorted).1 e he)
  · next hl =>
    rw [hl]
    intro e he
    cases he

theorem Clock.tick_engineTime (c : Clock) : c.tick.engineTime = c.engineTime ∨ c.tick.engineTime = c.engineTime + 1 := by
  unfold Clock.tick
  split
  · exact .inr rfl
  · exact .inl rfl

theorem ChainLaw.of_bufs {c d : Chain} (h : ChainLaw c) (same : d.bufs = c.bufs) : ChainLaw d := by
  unfold ChainLaw Chain.count at h ⊢
  rwa [same]

theorem passMicrosecond_operating (h : Operating s) (early : s.schedDue = none) : Operating (passMicrosecond s) := by
  have order : SchedOrder (decide (s.player.state = .paused)) s.clock.tick.engineTime s.player.sched := by
    rcases s.clock.tick_engineTime with same | next
    · rw [same]
      exact h.playing.engine.order
    · rw [next]
      refine h.playing.engine.order.tick (fun running => ?_) fun e he => (h.playing.engine.entries e he).left
      exact schedDue_none early h.playing.engine.order (of_decide_eq_false running)
  have shift (c : Chain) : c.tick.bufs = c.bufs ∧ c.tick.skips = c.skips := by
    unfold Chain.tick
    split <;> exact ⟨rfl, rfl⟩
  obtain ⟨bufs, skips⟩ := shift s.chain
  unfold passMicrosecond
  rw [h.phase]
  exact {
    phase := h.phase
    playing := h.playing.atInstant rfl rfl rfl order
    report := h.report
    work := h.work
    session := h.session
    chain := h.chain.of_bufs bufs
    inputs := h.inputs
    counters := ⟨skips.trans_le h.counters.1, h.counters.2⟩
    memory := h.memory
    store := h.store
    composed := h.composed
    blackout := h.blackout }

theorem passMicrosecond_sound (h : Sound s) (early : s.phase = .running → s.schedDue = none) :
    Sound (passMicrosecond s) := by
  cases phase : s.phase with
  | off =>
    unfold passMicrosecond
    rwa [phase]
  | held =>
    unfold passMicrosecond
    rwa [phase]
  | loading =>
    unfold passMicrosecond
    rw [phase]
    have resting := h.resting (by rw [phase]; decide)
    exact Resting.sound { resting with stopped := resting.stopped }
  | running => exact (passMicrosecond_operating (h.operating phase) (early phase)).sound

/-! ## The step -/

/-- An event that is not due, or that arrives at a part that does not run, changes nothing (log entry 4). -/
theorem onlyIf_sound {due : Bool} {f : State → State} (h : Sound s)
    (acts : Operating s → due = true → Operating (f s)) : Sound (onlyIf (s.runs && due) f s) := by
  unfold onlyIf
  split
  · next both =>
    rw [Bool.and_eq_true] at both
    obtain ⟨run, due⟩ := both
    exact (acts (h.operating (of_decide_eq_true run)) due).sound
  · exact h

theorem onlyIf_runs_sound {f : State → State} (h : Sound s) (acts : Operating s → Sound (f s)) :
    Sound (onlyIf s.runs f s) := by
  unfold onlyIf
  split
  · next run => exact acts (h.operating (of_decide_eq_true run))
  · exact h

/-- Every command keeps every law. -/
theorem exec_sound {c : Instr} {t : State} (h : Sound s) (next : exec c s = .next t) : Sound t := by
  cases c
  case powerOn addr rate =>
    obtain rfl := Host.Outcome.next.inj next
    exact applyPower_sound h
  case rstPinLow addr rate =>
    obtain rfl := Host.Outcome.next.inj next
    exact pullReset_sound h
  case rstPinHigh =>
    obtain rfl := Host.Outcome.next.inj next
    exact releaseReset_sound h
  case powerLoss =>
    obtain rfl := Host.Outcome.next.inj next
    exact losePower_sound h
  case startUpLoad =>
    obtain rfl := Host.Outcome.next.inj next
    unfold onlyIf
    split
    · next loading => exact (loadAtStart_operating h (of_decide_eq_true loading)).sound
    · exact h
  case receiveCharacter byte framing =>
    obtain rfl := Host.Outcome.next.inj next
    exact receive_sound h
  case frameGapTimeout =>
    obtain rfl := Host.Outcome.next.inj next
    exact onlyIf_sound h fun run _ => discardFrame_operating run
  case replyStart =>
    obtain rfl := Host.Outcome.next.inj next
    exact onlyIf_runs_sound h fun run => (startReply_operating run).sound
  case replyEnd =>
    obtain rfl := Host.Outcome.next.inj next
    exact onlyIf_runs_sound h fun run => endReply_sound run
  case frameEvent =>
    obtain rfl := Host.Outcome.next.inj next
    exact onlyIf_sound h fun run _ => frameEvent_operating run
  case armCueDoneArrival =>
    obtain rfl := Host.Outcome.next.inj next
    exact onlyIf_runs_sound h fun run => (takeCueDone_operating run).sound
  case scheduledStartExpiry =>
    obtain rfl := Host.Outcome.next.inj next
    split
    · next run found => exact (expireSched_operating found (h.operating (of_decide_eq_true run))).sound
    · exact h
  case followExpiry =>
    obtain rfl := Host.Outcome.next.inj next
    exact onlyIf_sound h fun run due => expireFollow_operating due run
  case editIdleTimeout =>
    obtain rfl := Host.Outcome.next.inj next
    exact onlyIf_sound h fun run _ => expireEdit_operating run
  case inputLineChange i level =>
    obtain rfl := Host.Outcome.next.inj next
    split
    · next run => exact (lineGoes_operating (h.operating (of_decide_eq_true run))).sound
    · exact setPins_sound h
  case debounceExpiry i playerFirst =>
    obtain rfl := Host.Outcome.next.inj next
    exact onlyIf_sound h fun run due => expireDebounce_operating due run
  case pwmPeriodBoundary =>
    obtain rfl := Host.Outcome.next.inj next
    exact onlyIf_sound h fun run _ => pwmBoundary_operating run
  case chainShiftEnd =>
    obtain rfl := Host.Outcome.next.inj next
    exact onlyIf_sound h fun run _ => finish_operating run
  case silenceTimerExpiry =>
    obtain rfl := Host.Outcome.next.inj next
    exact onlyIf_sound h fun run _ => expireSilence_operating run
  case eraseEnd complete =>
    obtain rfl := Host.Outcome.next.inj next
    split
    · next run found => exact (eraseEnds_operating (h.operating (of_decide_eq_true run)) (storeIn_some found).1).sound
    · exact h
  case programmingEnd taken =>
    obtain rfl := Host.Outcome.next.inj next
    split
    · next run found => exact (programmingEnds_operating (h.operating (of_decide_eq_true run)) (storeIn_some found).1).sound
    · exact h
  case verifyEnd same magicRead =>
    obtain rfl := Host.Outcome.next.inj next
    split
    · next run found => exact (verifyEnds_operating (h.operating (of_decide_eq_true run))).sound
    · exact h
  case storePhaseLimit =>
    obtain rfl := Host.Outcome.next.inj next
    split
    · next run found => exact (failStore_operating (h.operating (of_decide_eq_true run))).sound
    · exact h
  all_goals
    obtain rfl := Host.Outcome.next.inj next
    exact frameArrives_sound h

/-- The queue and the free values matter to no law. -/
theorem withPending_sound {cs : List Instr} (h : Sound s) : Sound (s.withPending cs) :=
  ⟨h.park, h.freeze, h.sched, h.live, h.tags, h.position, h.player, h.report, h.params, h.patch, h.cues, h.curves,
    h.arms, h.session, h.defined, h.chain, h.blackout, h.inputs, h.counters, h.memory, h.store, h.levels, h.atRest⟩

theorem tookFree_sound (h : Sound s) : Sound s.tookFree :=
  ⟨h.park, h.freeze, h.sched, h.live, h.tags, h.position, h.player, h.report, h.params, h.patch, h.cues, h.curves,
    h.arms, h.session, h.defined, h.chain, h.blackout, h.inputs, h.counters, h.memory, h.store, h.levels, h.atRest⟩

/-- No event is taken exactly if none is due. -/
theorem nextEvent_none : nextEvent s = none ↔ dueEvents s = [] := by
  unfold nextEvent
  split
  · next none => simp [none]
  · next one => simp [one]
  · next c d rest several =>
    rw [several, List.getElem?_eq_none_iff]
    have := Nat.mod_lt (Config.choice s.free) (show 0 < rest.length + 2 by omega)
    simp only [List.length_cons, reduceCtorEq, iff_false, not_le]
    omega

theorem schedDue_of_nothing_due (run : s.phase = .running) (nothing : dueEvents s = []) : s.schedDue = none := by
  unfold dueEvents at nothing
  rw [show s.runs = true from decide_eq_true run] at nothing
  simp only [Bool.not_true, Bool.false_eq_true, if_false, List.append_eq_nil_iff, and_assoc] at nothing
  obtain ⟨_, _, sched, _⟩ := nothing
  unfold dueIf at sched
  split at sched
  · cases sched
  · next absent => simpa using absent

/-- Every step keeps every law. -/
theorem step_sound {t : State} (h : Sound s) (next : step s = .next t) : Sound t := by
  unfold step at next
  split at next
  · exact exec_sound (withPending_sound h) next
  · unfold idle at next
    split at next
    · refine exec_sound ?_ next
      split
      · exact tookFree_sound h
      · exact h
    · next nothing =>
      obtain rfl := Host.Outcome.next.inj next
      exact passMicrosecond_sound h fun run => schedDue_of_nothing_due run (nextEvent_none.mp nothing)

end

/-! ## The obligations on every step -/

/-- Settles O53. -/
theorem stepKeepsParksAndSchedule : Obligations.StepKeepsParksAndSchedule := fun _ _ h next =>
  ⟨(step_sound h next).park, (step_sound h next).sched⟩

/-- Settles O54. -/
theorem stepKeepsThePlayerLaws : Obligations.StepKeepsThePlayerLaws := fun _ _ h next =>
  ⟨(step_sound h next).freeze, (step_sound h next).position, (step_sound h next).player⟩

/-- Settles O55. -/
theorem stepKeepsTheAccounting : Obligations.StepKeepsTheAccounting := fun _ _ h next =>
  ⟨(step_sound h next).live, (step_sound h next).tags⟩

/-- Settles O56. -/
theorem stepKeepsTheReportQueue : Obligations.StepKeepsTheReportQueue := fun _ _ h next => (step_sound h next).report

/-- Settles O57. -/
theorem stepKeepsTheShow : Obligations.StepKeepsTheShow :=
  ⟨fun _ _ h next =>
    have sound := step_sound h next
    ⟨sound.params, sound.patch, sound.cues, sound.curves, sound.arms, sound.session⟩,
  fun _ _ h next => (step_sound h next).defined⟩

/-- Settles O58. -/
theorem stepKeepsTheMemory : Obligations.StepKeepsTheMemory := fun _ _ h next =>
  ⟨(step_sound h next).memory, (step_sound h next).store⟩

/-- Settles O59. -/
theorem stepKeepsTheOutputsAndTheLine : Obligations.StepKeepsTheOutputsAndTheLine := fun _ _ h next =>
  have sound := step_sound h next
  ⟨sound.chain, sound.blackout, sound.inputs, sound.counters, sound.atRest⟩

/-- Settles O60. -/
theorem stepKeepsTheLevels : Obligations.StepKeepsTheLevels := fun _ _ h next => (step_sound h next).levels

end Sys2Proof.Machine
end

section
/-! SUPPORT. The queue of waiting commands, which no command changes, and the passing of time (log entries 1 to 3). -/

namespace Sys2Proof.Machine

/-! ## The queue -/

/-- Settles O1. -/
theorem frontOfQueueRuns : Obligations.FrontOfQueueRuns := by
  intro c rest s queue
  unfold step
  rw [queue]

section Pending

variable {s : State}

/-- What an owning block leaves alone when it takes a message: the queue, the phase, and the line interface but for a pending
reset and the silence timer (R170, R181, R183). -/
structure BlockKept (s t : State) : Prop where
  pending : t.pending = s.pending
  phase : t.phase = s.phase
  line : t.line = { s.line with pendingReset := t.line.pendingReset, silenceFrom := t.line.silenceFrom }

theorem BlockKept.refl (s : State) : BlockKept s s := ⟨rfl, rfl, rfl⟩

theorem BlockKept.trans {s t u : State} (h : BlockKept s t) (k : BlockKept t u) : BlockKept s u :=
  ⟨k.pending.trans h.pending, k.phase.trans h.phase, k.line.trans (by rw [h.line])⟩

theorem Played.blockKept {s t : State} (h : Played s t) : BlockKept s t :=
  ⟨h.pending, h.phase, by rw [h.line]⟩

theorem applyParam_kept (id v : Nat) (s : State) : BlockKept s (applyParam id v s) := by
  unfold applyParam
  dsimp only
  split
  · exact ⟨rfl, rfl, rfl⟩
  · split <;> exact ⟨rfl, rfl, rfl⟩

theorem configureOp_kept (pairs : List RawPair) (s : State) : BlockKept s (configureOp pairs s).1 := by
  have fold (l : List RawPair) (u : State) :
      BlockKept u (l.foldl (fun s p => applyParam p.id.toNat p.value.toNat s) u) := by
    induction l generalizing u with
    | nil => exact ⟨rfl, rfl, rfl⟩
    | cons p rest ih => exact (applyParam_kept _ _ u).trans (ih _)
  unfold configureOp
  split
  · exact ⟨rfl, rfl, rfl⟩
  · exact fold pairs s

theorem loadShowOp_kept (s : State) : BlockKept s (loadShowOp s).1 := by
  unfold loadShowOp
  split
  · exact ⟨rfl, rfl, rfl⟩
  · split
    · exact ⟨rfl, rfl, rfl⟩
    · split <;> exact ⟨rfl, rfl, rfl⟩

theorem runMessage_kept (via : Via) (m : Message) (s : State) : BlockKept s (runMessage via m s).1 := by
  cases m with
  | identify => exact ⟨rfl, rfl, rfl⟩
  | readStatus => exact ⟨rfl, rfl, rfl⟩
  | configure pairs => exact configureOp_kept pairs s
  | readConfig first count => exact (readConfigOp_fst first count s).symm ▸ .refl s
  | patch first records =>
    change BlockKept s (patchOp first records s).1
    unfold patchOp
    dsimp only
    split
    · exact ⟨rfl, rfl, rfl⟩
    · split <;> exact ⟨rfl, rfl, rfl⟩
  | readPatch first count => exact (readPatchOp_fst first count s).symm ▸ .refl s
  | reset mode =>
    change BlockKept s (resetOp mode s).1
    unfold resetOp
    split
    · split <;> exact ⟨rfl, rfl, rfl⟩
    · split <;> exact ⟨rfl, rfl, rfl⟩
  | editCurve id count =>
    change BlockKept s (editCurveOp id count s).1
    unfold editCurveOp
    split
    · exact ⟨rfl, rfl, rfl⟩
    · split <;> exact ⟨rfl, rfl, rfl⟩
  | curvePoints first points =>
    change BlockKept s (curvePointsOp first points s).1
    unfold curvePointsOp
    split
    · split
      · exact ⟨rfl, rfl, rfl⟩
      · split <;> exact ⟨rfl, rfl, rfl⟩
    · exact ⟨rfl, rfl, rfl⟩
    · exact ⟨rfl, rfl, rfl⟩
  | editCue cue =>
    change BlockKept s (editCueOp cue s).1
    unfold editCueOp
    dsimp only
    split
    · exact ⟨rfl, rfl, rfl⟩
    · split
      · exact ⟨rfl, rfl, rfl⟩
      · split <;> exact ⟨rfl, rfl, rfl⟩
  | cueActions records =>
    change BlockKept s (cueActionsOp records s).1
    unfold cueActionsOp
    split
    · split
      · exact ⟨rfl, rfl, rfl⟩
      · split <;> exact ⟨rfl, rfl, rfl⟩
    · exact ⟨rfl, rfl, rfl⟩
    · exact ⟨rfl, rfl, rfl⟩
  | cueFollow follow =>
    change BlockKept s (cueFollowOp follow s).1
    unfold cueFollowOp
    split
    · split <;> exact ⟨rfl, rfl, rfl⟩
    · exact ⟨rfl, rfl, rfl⟩
    · exact ⟨rfl, rfl, rfl⟩
  | editCommit =>
    change BlockKept s (editCommitOp s).1
    unfold editCommitOp
    split
    · exact ⟨rfl, rfl, rfl⟩
    · split <;> exact ⟨rfl, rfl, rfl⟩
    · split <;> exact ⟨rfl, rfl, rfl⟩
  | editAbort =>
    change BlockKept s (editAbortOp s).1
    unfold editAbortOp
    split <;> exact ⟨rfl, rfl, rfl⟩
  | deleteCue cue =>
    change BlockKept s (deleteCueOp cue s).1
    unfold deleteCueOp
    dsimp only
    split
    · exact ⟨rfl, rfl, rfl⟩
    · split <;> exact ⟨rfl, rfl, rfl⟩
  | dropCurve id =>
    change BlockKept s (dropCurveOp id s).1
    unfold dropCurveOp
    dsimp only
    split
    · exact ⟨rfl, rfl, rfl⟩
    · split
      · exact ⟨rfl, rfl, rfl⟩
      · split <;> exact ⟨rfl, rfl, rfl⟩
  | readCue cue first => exact (readCueOp_fst cue first s).symm ▸ .refl s
  | readCurve id first => exact (readCurveOp_fst id first s).symm ▸ .refl s
  | listCues after => exact (listCuesOp_fst after s).symm ▸ .refl s
  | go => exact (goOp_fst _ _ s).symm ▸ (goRequest_played _ _ s).blockKept
  | goTo cue => exact (goOp_fst _ _ s).symm ▸ (goRequest_played _ _ s).blockKept
  | back => exact (goOp_fst _ _ s).symm ▸ (goRequest_played _ _ s).blockKept
  | pause => exact (pauseOp_fst s).symm ▸ (pauseRequest_played s).blockKept
  | resume => exact (resumeOp_fst s).symm ▸ (resumeRequest_played s).blockKept
  | release time =>
    change BlockKept s (releaseOp time s).1
    unfold releaseOp
    split
    · exact ⟨rfl, rfl, rfl⟩
    · have played := releaseNow_played time.toNat s
      generalize releaseNow time.toNat s = r at played ⊢
      exact played.blockKept
  | readPlayer part first => exact (readPlayerOp_fst part first s).symm ▸ .refl s
  | fade mask target time curve tag => exact (fadeOp_fst _ _ _ _ _ s).symm ▸ (fadeRequest_played _ _ _ _ _ s).blockKept
  | park mask level =>
    change BlockKept s (parkOp mask level s).1
    unfold parkOp
    split
    · exact ⟨rfl, rfl, rfl⟩
    · exact (parkNow_played mask level.toNat s).blockKept
  | unpark mask =>
    change BlockKept s (unparkOp mask s).1
    unfold unparkOp
    split <;> exact ⟨rfl, rfl, rfl⟩
  | setMaster level time => exact (setMasterOp_fst _ _ s).symm ▸ (masterRequest_played _ _ s).blockKept
  | setBlackout state =>
    change BlockKept s (setBlackoutOp state s).1
    unfold setBlackoutOp
    split <;> exact ⟨rfl, rfl, rfl⟩
  | readChannels first count => exact (readChannelsOp_fst first count s).symm ▸ .refl s
  | arm slot mode condition action =>
    change BlockKept s (armOp slot mode condition action s).1
    unfold armOp
    split <;> exact ⟨rfl, rfl, rfl⟩
  | disarm slot =>
    change BlockKept s (disarmOp slot s).1
    unfold disarmOp
    split <;> exact ⟨rfl, rfl, rfl⟩
  | readArm slot => exact (readArmOp_fst slot s).symm ▸ .refl s
  | poll ack => exact ⟨rfl, rfl, rfl⟩
  | storeShow =>
    change BlockKept s (storeShowOp s).1
    unfold storeShowOp
    split
    · exact ⟨rfl, rfl, rfl⟩
    · split <;> exact ⟨rfl, rfl, rfl⟩
  | loadShow => exact loadShowOp_kept s
  | readMemory => exact ⟨rfl, rfl, rfl⟩

theorem abandonStore_pending (s : State) : (abandonStore s).pending = s.pending := by
  obtain ⟨banks, free, abandoned, _⟩ := abandonStore_eq s
  rw [abandoned]

theorem coldStart_pending (reason : Reason) (phase : Phase) (s : State) :
    (coldStart reason phase s).pending = s.pending := by
  unfold coldStart
  exact abandonStore_pending s

theorem takeReset_pending (m : ResetMode) (s : State) : (takeReset m s).pending = s.pending := by
  cases m with
  | warm =>
    change (warmStart s).pending = s.pending
    rw [warmStart_eq]
    rfl
  | cold => exact coldStart_pending _ _ s

theorem noteTaken_pending (s : State) : (noteTaken s).pending = s.pending := by
  unfold noteTaken
  split <;> rfl

theorem judgeFrame_pending (f : FrameIn) (s : State) : (judgeFrame f s).pending = s.pending := by
  unfold judgeFrame
  split
  · rfl
  · unfold takeNode
    split
    · exact noteTaken_pending s
    · split
      · exact noteTaken_pending s
      · exact ((runMessage_kept _ _ _).pending).trans (noteTaken_pending s)
  · unfold takeGroup
    split
    · exact noteTaken_pending s
    · dsimp only
      split
      · split
        · exact noteTaken_pending s
        · exact ((runMessage_kept _ _ _).pending).trans (noteTaken_pending s)
      · exact noteTaken_pending s

theorem frameEnds_pending (s : State) : (frameEnds s).pending = s.pending := by
  unfold frameEnds dropPartial
  dsimp only
  split <;> rfl

theorem checkFrame_pending (bytes : List Byte) (s : State) : (checkFrame bytes s).pending = s.pending := by
  unfold checkFrame
  dsimp only
  split
  · rfl
  · split
    · split
      · exact judgeFrame_pending _ _
      · rfl
    · rfl

theorem huntCharacter_pending (b : Byte) (framing : Bool) (s : State) :
    (huntCharacter b framing s).pending = s.pending := by
  unfold huntCharacter
  split <;> rfl

theorem assemble_pending (b : Byte) (framing : Bool) (s : State) : (assemble b framing s).pending = s.pending := by
  unfold assemble
  dsimp only
  split
  · exact huntCharacter_pending _ _ _
  · split
    · exact huntCharacter_pending _ _ _
    · split
      · rfl
      · unfold addCharacter
        dsimp only
        split
        · split
          · rfl
          · split
            · exact checkFrame_pending _ _
            · rfl
        · rfl

theorem hear_pending {x : Heard} (heard : hear s = some x) : x.state.pending = s.pending := by
  unfold hear at heard
  split at heard
  · cases heard
  · split at heard
    · obtain rfl := Option.some.inj heard
      rfl
    · cases heard
    · dsimp only at heard
      split at heard
      · obtain rfl := Option.some.inj heard
        exact takeReset_pending _ _
      · obtain rfl := Option.some.inj heard
        rfl

theorem receive_pending (b : Byte) (framing : Bool) (s : State) : (receive b framing s).pending = s.pending := by
  unfold receive
  split
  · rfl
  · next x heard =>
    split
    · exact hear_pending heard
    · exact (assemble_pending _ _ _).trans (hear_pending heard)

theorem frameArrives_pending (h : Hdr) (m : Message) (s : State) : (frameArrives h m s).pending = s.pending := by
  unfold frameArrives
  split
  · rfl
  · next x heard =>
    split
    · exact hear_pending heard
    · exact (judgeFrame_pending _ _).trans ((frameEnds_pending _).trans (hear_pending heard))

theorem failStore_pending (r : Store) (s : State) : (failStore r s).pending = s.pending := by
  obtain ⟨free, stop⟩ := stopPhase_eq r s
  unfold failStore
  rw [stop]
  rfl

theorem verifyEnds_pending (same magicRead : Bool) (r : Store) (s : State) :
    (verifyEnds same magicRead r s).pending = s.pending := by
  unfold verifyEnds
  dsimp only
  split
  · rfl
  · split
    · exact failStore_pending r s
    · split <;> rfl

theorem frameEvent_pending (s : State) : (frameEvent s).pending = s.pending := by
  obtain ⟨u, before, _, after⟩ := frameEvent_composes s
  rw [after.pending, compose_frame]
  exact before.pending

theorem deliverInput_pending (i : Input) (active playerFirst : Bool) (s : State) :
    (deliverInput i active playerFirst s).pending = s.pending := by
  unfold deliverInput
  split
  · rfl
  · exact (takeInputEvent_acted _ _ s).pending
  · split
    · exact (takeInputEvent_acted _ _ _).pending.trans (inputGo_acted _ s).pending
    · exact (inputGo_acted _ _).pending.trans (takeInputEvent_acted _ _ s).pending
  · exact (takeInputEvent_acted _ _ s).pending

theorem expireDebounce_pending (i : Input) (playerFirst : Bool) (s : State) :
    (expireDebounce i playerFirst s).pending = s.pending := by
  refine (deliverInput_pending _ _ _ _).trans ?_
  split <;> rfl

theorem expireSilence_pending (s : State) : (expireSilence s).pending = s.pending := by
  have acted (u : State) : (silenceAction u).1.pending = u.pending := by
    unfold silenceAction
    split
    · rfl
    · split
      · rfl
      · have played := goRequest_played (.goTo u.working.params.safeCue) .silence u
        split <;> next e => rw [e] at played; exact played.pending
  exact acted _

theorem endReply_pending (s : State) : (endReply s).pending = s.pending := by
  unfold endReply
  split
  · split
    · dsimp only
      split
      · exact takeReset_pending _ _
      · rfl
    · rfl
  · rfl
  · rfl

theorem onlyIf_pending {due : Bool} {f : State → State} (kept : ∀ u, (f u).pending = u.pending) (s : State) :
    (onlyIf due f s).pending = s.pending := by
  unfold onlyIf
  split
  · exact kept s
  · rfl

/-- No command takes or adds a waiting command. -/
theorem exec_pending {c : Instr} {t : State} (next : exec c s = .next t) : t.pending = s.pending := by
  cases c
  all_goals obtain rfl := Host.Outcome.next.inj next
  case powerOn => exact coldStart_pending _ _ _
  case rstPinLow =>
    unfold pullReset
    dsimp only
    split
    · rfl
    · exact coldStart_pending _ _ _
  case rstPinHigh =>
    unfold releaseReset
    dsimp only
    split <;> rfl
  case powerLoss => exact coldStart_pending _ _ _
  case startUpLoad => exact onlyIf_pending (fun u => by rw [loadAtStart_eq]; rfl) s
  case receiveCharacter => exact receive_pending _ _ s
  case frameGapTimeout => exact onlyIf_pending (f := discardFrame) (fun _ => rfl) s
  case replyStart =>
    refine onlyIf_pending (fun u => ?_) s
    unfold startReply
    split
    · split <;> rfl
    · rfl
    · rfl
  case replyEnd => exact onlyIf_pending endReply_pending s
  case frameEvent => exact onlyIf_pending frameEvent_pending s
  case armCueDoneArrival => exact onlyIf_pending (fun u => (takeCueDone_acted u).pending) s
  case scheduledStartExpiry =>
    split
    · exact (expireSched_played _ s).pending
    · rfl
  case followExpiry => exact onlyIf_pending (fun u => (expireFollow_played u).pending) s
  case editIdleTimeout =>
    refine onlyIf_pending (fun u => ?_) s
    unfold expireEdit
    split <;> rfl
  case inputLineChange =>
    split
    · unfold lineGoes
      dsimp only
      split <;> rfl
    · rfl
  case debounceExpiry => exact onlyIf_pending (expireDebounce_pending _ _) s
  case pwmPeriodBoundary => exact onlyIf_pending (f := pwmBoundary) (fun _ => rfl) s
  case chainShiftEnd => exact onlyIf_pending (f := fun s => s.setChain s.chain.finish) (fun _ => rfl) s
  case silenceTimerExpiry => exact onlyIf_pending expireSilence_pending s
  case eraseEnd =>
    split
    · unfold eraseEnds
      split
      · rfl
      · exact failStore_pending _ s
    · rfl
  case programmingEnd =>
    split
    · unfold programmingEnds
      split
      · rfl
      · exact failStore_pending _ s
    · rfl
  case verifyEnd =>
    split
    · exact verifyEnds_pending _ _ _ s
    · rfl
  case storePhaseLimit =>
    split
    · exact failStore_pending _ s
    · rfl
  all_goals exact frameArrives_pending _ _ s

end Pending

/-! ## The passing of time -/

theorem exec_next (c : Instr) (s : State) : ∃ t, exec c s = .next t := by
  cases c <;> exact ⟨_, rfl⟩

theorem choosing_single {c : Instr} {s : State} (one : dueEvents s = [c]) : choosing s = false := by
  rw [choosing, one]
  rfl

theorem nextEvent_mem {c : Instr} {s : State} (h : nextEvent s = some c) : c ∈ dueEvents s := by
  unfold nextEvent at h
  split at h
  · cases h
  · next d one =>
    obtain rfl := Option.some.inj h
    rw [one]
    exact List.mem_singleton_self d
  · next several =>
    rw [several]
    exact List.mem_of_getElem? h

theorem step_of_empty {s : State} (empty : s.pending = []) : step s = idle s := by
  unfold step
  rw [empty]

theorem step_of_due {s : State} (empty : s.pending = []) (due : dueEvents s ≠ []) :
    ∃ c ∈ dueEvents s, ∃ k, step s = exec c { s with free := k } := by
  cases next : nextEvent s with
  | none => exact absurd (nextEvent_none.mp next) due
  | some c =>
    refine ⟨c, nextEvent_mem next, if choosing s then s.free + 1 else s.free, ?_⟩
    rw [step_of_empty empty, idle, next]
    dsimp only
    cases choosing s <;> rfl

theorem step_of_nothing {s : State} (empty : s.pending = []) (nothing : dueEvents s = []) :
    step s = .next (passMicrosecond s) := by
  rw [step_of_empty empty, idle, nextEvent_none.mpr nothing]

theorem Clock.tick_eq (c : Clock) : c.tick =
    { engineTime := if 999 ≤ c.micro then c.engineTime + 1 else c.engineTime
      micro := if 999 ≤ c.micro then 0 else c.micro + 1
      frameTimer := c.frameTimer } := by
  unfold Clock.tick Clock.rolls
  by_cases late : 999 ≤ c.micro <;> simp [late]

theorem Chain.tick_eq (c : Chain) : c.tick = { c with age := if c.shifting then c.age + 1 else c.age } := by
  unfold Chain.tick
  split <;> rfl

theorem LineUnit.tick_eq (c : Clock) (l : LineUnit) : l.tick c.rolls =
    { l with
      reply := match l.reply with
        | .idle => .idle
        | .waiting frame age => .waiting frame (age + 1)
        | .sending frame age => .sending frame (age + 1)
      rxAge := match l.rx with
        | .hunt => l.rxAge
        | .receiving _ => l.rxAge + 1
      silence := match l.silence with
        | .listening => .listening
        | .silent ms => .silent (if 999 ≤ c.micro then ms + 1 else ms) } := by
  unfold LineUnit.tick Clock.rolls Silence.tick Reply.tick
  by_cases late : 999 ≤ c.micro <;> simp only [late, decide_true, decide_false, if_true, if_false] <;> rfl

theorem InputUnit.tick_eq (c : Clock) (u : InputUnit) :
    u.tick c.rolls = { u with sampled := if 999 ≤ c.micro then Vector.replicate 4 false else u.sampled } := by
  unfold InputUnit.tick Clock.rolls
  by_cases late : 999 ≤ c.micro <;> simp [late]

theorem passMicrosecond_running {s : State} (run : s.phase = .running) : passMicrosecond s =
    { s with
      clock := s.clock.tick.count, pwm := s.pwm.tick, chain := s.chain.tick
      line := s.line.tick s.clock.rolls, inputs := s.inputs.tick s.clock.rolls } := by
  unfold passMicrosecond
  rw [run]
  dsimp only
  rw [← run]
  rfl

/-- Settles O2: each command by its arm, the queue by `exec_pending`, the time that passes by the phase of the part. -/
theorem commandsRunAndTimePasses : Obligations.CommandsRunAndTimePasses := by
  refine ⟨exec_next, fun c s t next => exec_pending next, fun s empty => ⟨fun c one => ?_, step_of_due empty⟩,
    fun s empty nothing => ?_⟩
  · rw [step_of_empty empty, idle, nextEvent, one]
    dsimp only
    rw [choosing_single one]
    rfl
  · rw [step_of_nothing empty nothing]
    refine ⟨fun run => ?_, fun loading => ?_, fun stopped => ?_⟩
    · rw [passMicrosecond_running run, LineUnit.tick_eq, InputUnit.tick_eq, Chain.tick_eq, Clock.tick_eq]
      rfl
    · unfold passMicrosecond
      rw [loading]
      dsimp only
      rw [Clock.tick_eq]
      exact congrArg Host.Outcome.next (by rw [← loading]; rfl)
    · unfold passMicrosecond
      rcases stopped with e | e <;> rw [e]

end Sys2Proof.Machine
end

section
/-! SUPPORT. Characters and frames of the line: what the assembler does with each character, and that the frame of a message
reads back as that message (chapters 9 and 11). -/

namespace Sys2Proof.Machine

/-! ## Fields of two, three and four bytes -/

theorem half_toNat (a b : Byte) : (half a b).toNat = a.toNat + 256 * b.toNat := by
  rw [half, BitVec.toNat_append, ← Nat.shiftLeft_add_eq_or_of_lt a.isLt, Nat.shiftLeft_eq]
  omega

theorem word_toNat (a b c d : Byte) :
    (word a b c d).toNat = a.toNat + 256 * b.toNat + 65536 * c.toNat + 16777216 * d.toNat := by
  rw [word, BitVec.toNat_append, BitVec.toNat_append, BitVec.toNat_append, ← Nat.shiftLeft_add_eq_or_of_lt a.isLt,
    ← Nat.shiftLeft_add_eq_or_of_lt b.isLt, ← Nat.shiftLeft_add_eq_or_of_lt c.isLt, Nat.shiftLeft_eq,
    Nat.shiftLeft_eq, Nat.shiftLeft_eq]
  omega

theorem mask3_toNat (a b c : Byte) : (mask3 a b c).toNat = a.toNat + 256 * b.toNat + 65536 * c.toNat := by
  rw [mask3, BitVec.toNat_append, BitVec.toNat_append, ← Nat.shiftLeft_add_eq_or_of_lt a.isLt,
    ← Nat.shiftLeft_add_eq_or_of_lt b.isLt, Nat.shiftLeft_eq, Nat.shiftLeft_eq]
  omega

@[simp] theorem half_byte2 (x : Half) : half (x.setWidth 8) (BitVec.ofNat 8 (x.toNat / 256)) = x := by
  apply BitVec.eq_of_toNat_eq
  rw [half_toNat, BitVec.toNat_setWidth, BitVec.toNat_ofNat]
  have := x.isLt
  omega

@[simp] theorem word_byte4 (x : Word) : word (x.setWidth 8) (BitVec.ofNat 8 (x.toNat / 256))
    (BitVec.ofNat 8 (x.toNat / 65536)) (BitVec.ofNat 8 (x.toNat / 16777216)) = x := by
  apply BitVec.eq_of_toNat_eq
  rw [word_toNat, BitVec.toNat_setWidth, BitVec.toNat_ofNat, BitVec.toNat_ofNat, BitVec.toNat_ofNat]
  have := x.isLt
  omega

@[simp] theorem mask3_byte3 (x : ChanMask) : mask3 (x.setWidth 8) (BitVec.ofNat 8 (x.toNat / 256))
    (BitVec.ofNat 8 (x.toNat / 65536)) = x := by
  apply BitVec.eq_of_toNat_eq
  rw [mask3_toNat, BitVec.toNat_setWidth, BitVec.toNat_ofNat, BitVec.toNat_ofNat]
  have := x.isLt
  omega

/-! ## Payloads -/

theorem parsePairs_bytes (pairs : List RawPair) : parsePairs (pairs.flatMap pairBytes) = some pairs := by
  induction pairs with
  | nil => rfl
  | cons p rest ih => simp [pairBytes, byte4, parsePairs, ih]

theorem parseOutputs_bytes (records : List RawOutput) :
    parseOutputs (records.flatMap outputRecordBytes) = some records := by
  induction records with
  | nil => rfl
  | cons r rest ih => simp [outputRecordBytes, byte2, parseOutputs, ih]

theorem parsePoints_bytes (points : List RawPoint) : parsePoints (points.flatMap pointRecordBytes) = some points := by
  induction points with
  | nil => rfl
  | cons p rest ih => simp [pointRecordBytes, byte2, parsePoints, ih]

theorem parseActions_bytes (records : List RawAction) :
    parseActions (records.flatMap actionRecordBytes) = some records := by
  induction records with
  | nil => rfl
  | cons r rest ih => simp [actionRecordBytes, byte2, byte4, parseActions, ih]

theorem length_flatMap_const {α : Type} {f : α → List Byte} {k : Nat} (each : ∀ x, (f x).length = k) (l : List α) :
    (l.flatMap f).length = k * l.length := by
  rw [List.length_flatMap, List.map_congr_left fun x _ => each x]
  simp [Nat.mul_comm]

/-- The payload of a message reads back as that message (R206, R208). -/
theorem layout_payload (m : Message) (ok : m.lengthOk = true) :
    ∃ f, layout (kindOf m) = some f ∧ f (payloadOf m) = some m := by
  cases m
  case configure pairs => exact ⟨_, rfl, congrArg (Option.map _) (parsePairs_bytes pairs)⟩
  case patch first records => exact ⟨_, rfl, congrArg (Option.map _) (parseOutputs_bytes records)⟩
  case curvePoints first points => exact ⟨_, rfl, congrArg (Option.map _) (parsePoints_bytes points)⟩
  case cueActions records => exact ⟨_, rfl, congrArg (Option.map _) (parseActions_bytes records)⟩
  case arm slot mode condition action =>
    obtain ⟨five, _⟩ := of_decide_eq_true (p := condition.length = 5 ∧ action.length = 11) ok
    refine ⟨_, rfl, ?_⟩
    simp [payloadOf, five]
  all_goals exact ⟨_, rfl, by simp [payloadOf, payload0, payload1, payload2, payloadHalf, byte2, byte3, byte4]⟩

theorem parseMessage_payload (m : Message) (ok : m.lengthOk = true) :
    parseMessage (kindOf m) (payloadOf m) = lineCheck m := by
  obtain ⟨f, found, read⟩ := layout_payload m ok
  unfold parseMessage
  rw [found]
  dsimp only
  rw [read]

theorem length_payloadOf (m : Message) (ok : m.lengthOk = true) : (payloadOf m).length ≤ 60 := by
  cases m
  case configure pairs =>
    obtain ⟨_, most⟩ := of_decide_eq_true (p := 1 ≤ pairs.length ∧ pairs.length ≤ 10) ok
    rw [payloadOf, length_flatMap_const (k := 5) (fun _ => rfl)]
    omega
  case patch first records =>
    obtain ⟨_, most⟩ := of_decide_eq_true (p := 1 ≤ records.length ∧ records.length ≤ 8) ok
    rw [payloadOf, List.length_cons, length_flatMap_const (k := 6) (fun _ => rfl)]
    omega
  case curvePoints first points =>
    obtain ⟨_, most⟩ := of_decide_eq_true (p := 1 ≤ points.length ∧ points.length ≤ 12) ok
    rw [payloadOf, List.length_cons, length_flatMap_const (k := 4) (fun _ => rfl)]
    omega
  case cueActions records =>
    obtain ⟨_, most⟩ := of_decide_eq_true (p := 1 ≤ records.length ∧ records.length ≤ 4) ok
    rw [payloadOf, length_flatMap_const (k := 10) (fun _ => rfl)]
    omega
  case arm slot mode condition action =>
    obtain ⟨five, eleven⟩ := of_decide_eq_true (p := condition.length = 5 ∧ action.length = 11) ok
    simp [payloadOf, five, eleven]
  all_goals simp [payloadOf, byte2, byte3, byte4]

/-- Settles O4. -/
theorem payloadsReadBack : Obligations.PayloadsReadBack := fun m ok => ⟨length_payloadOf m ok, parseMessage_payload m ok⟩

/-! ## Characters -/

section Characters

variable {s : State} {b : Byte} {framing : Bool}

theorem receive_listens (l : Listens s) : receive b framing s = assemble b framing s := by
  unfold receive hear
  rw [l.1, l.2]
  rfl

theorem exec_receiveCharacter (l : Listens s) : exec (.receiveCharacter b framing) s = .next (assemble b framing s) :=
  congrArg Host.Outcome.next (receive_listens l)

/-- A character that begins a frame (R166). -/
theorem huntCharacter_begins (lead : b = 0xD2 ∨ b = 0xD3) :
    huntCharacter b false s = s.setLine { s.line with rx := .receiving [b] } := by
  unfold huntCharacter
  rcases lead with rfl | rfl <;> rfl

/-- A character that begins no frame (R166). -/
theorem huntCharacter_ignored (other : framing = true ∨ (b ≠ 0xD2 ∧ b ≠ 0xD3)) : huntCharacter b framing s = s := by
  unfold huntCharacter
  refine if_neg ?_
  rcases other with rfl | ⟨a, c⟩
  · simp
  · simpa using fun _ => ⟨a, c⟩

theorem assemble_hunt (rx : s.line.rx = .hunt) :
    assemble b framing s = huntCharacter b framing (s.setLine { s.line with rxAge := 0 }) := by
  unfold assemble
  dsimp only
  rw [show (s.setLine { s.line with rxAge := 0 }).line.rx = .hunt from rx]

theorem assemble_receiving {held : List Byte} (rx : s.line.rx = .receiving held) :
    assemble b framing s =
      if gapOver s.line.rxAge (rateOf s.line.lineRate) then
        huntCharacter b framing (discardFrame (s.setLine { s.line with rxAge := 0 }))
      else if framing then discardFrame (s.setLine { s.line with rxAge := 0 })
      else addCharacter held b (s.setLine { s.line with rxAge := 0 }) := by
  unfold assemble
  dsimp only
  rw [show (s.setLine { s.line with rxAge := 0 }).line.rx = .receiving held from rx]
  rfl

theorem gapOver_eq (age rate : Nat) : gapOver age rate = decide (2000 * rate + 10000000 < age * rate) := rfl

/-- Before the length byte a character is held (R166). -/
theorem addCharacter_short {held : List Byte} (short : held.length < 4) :
    addCharacter held b s = s.setLine { s.line with rx := .receiving (held ++ [b]) } := by
  match held, short with
  | [], _ => rfl
  | [_], _ => rfl
  | [_, _], _ => rfl
  | [_, _, _], _ => rfl

/-- With the length byte among its characters, a frame is discarded, complete, or goes on (R166). -/
theorem addCharacter_long {held : List Byte} {a c d e len : Byte} {rest : List Byte}
    (bytes : held ++ [b] = a :: c :: d :: e :: len :: rest) :
    addCharacter held b s =
      if 60 < len.toNat then discardFrame s
      else if (held ++ [b]).length = frameLength len then checkFrame (held ++ [b]) s
      else s.setLine { s.line with rx := .receiving (held ++ [b]) } := by
  unfold addCharacter
  dsimp only
  rw [bytes]

/-- The fifth character of a frame is its length byte (R166). -/
theorem addCharacter_length {held : List Byte} (four : held.length = 4) :
    addCharacter held b s =
      if 60 < b.toNat then discardFrame s else s.setLine { s.line with rx := .receiving (held ++ [b]) } := by
  match held, four with
  | [p, q, r, t], _ =>
    rw [addCharacter_long (a := p) (c := q) (d := r) (e := t) (len := b) (rest := []) rfl]
    have unfinished : ¬ ([p, q, r, t] ++ [b]).length = frameLength b := by
      simp [frameLength]
      omega
    rw [if_neg unfinished]

/-- The check of a whole frame (R167). -/
theorem checkFrame_eq (lead a c d len lo hi : Byte) (payload : List Byte) (s : State) :
    checkFrame ([lead, a, c, d, len] ++ payload ++ [lo] ++ [hi]) s =
      if half lo hi ≠ crc16 ([a, c, d, len] ++ payload) then countCrcError (s.setLine { s.line with rx := .hunt })
      else if lead = 0xD2 then judgeFrame ⟨a, c, d, parseMessage d payload⟩ (s.setLine { s.line with rx := .hunt })
      else s.setLine { s.line with rx := .hunt } := by
  have body : frameBody ([lead, a, c, d, len] ++ payload ++ [lo] ++ [hi]) = [a, c, d, len] ++ payload := by
    simp [frameBody]
  have tail : ([lead, a, c, d, len] ++ payload ++ [lo] ++ [hi]).drop
      (([lead, a, c, d, len] ++ payload ++ [lo] ++ [hi]).length - 2) = [lo, hi] := by
    rw [List.append_assoc ([lead, a, c, d, len] ++ payload)]
    exact List.drop_left' (by simp)
  have crc : littleEndian [lo, hi] ≠ (crc16 ([a, c, d, len] ++ payload)).toNat
      ↔ half lo hi ≠ crc16 ([a, c, d, len] ++ payload) := by
    rw [ne_eq, ne_eq, ← BitVec.toNat_inj, half_toNat]
    rfl
  unfold checkFrame
  dsimp only
  rw [body, tail]
  simp only [crc]
  rfl

theorem frameLength_eq (len : Byte) : frameLength len = len.toNat + 7 := by
  unfold frameLength
  omega

/-- The last character of a frame brings it to the check (R166, R167). -/
theorem assemble_last {lead a c d len lo hi : Byte} {payload : List Byte} (length : payload.length = len.toNat)
    (least : len.toNat ≤ 60) (rx : s.line.rx = .receiving ([lead, a, c, d, len] ++ payload ++ [lo]))
    (inTime : s.line.rxAge * rateOf s.line.lineRate ≤ 2000 * rateOf s.line.lineRate + 10000000) :
    assemble hi false s
      = checkFrame ([lead, a, c, d, len] ++ payload ++ [lo] ++ [hi]) (s.setLine { s.line with rxAge := 0 }) := by
  have whole : ([lead, a, c, d, len] ++ payload ++ [lo] ++ [hi]).length = frameLength len := by
    rw [frameLength_eq]
    simp
    omega
  rw [assemble_receiving rx, gapOver_eq, decide_eq_false (by omega), if_neg Bool.false_ne_true,
    if_neg Bool.false_ne_true, addCharacter_long (a := lead) (c := a) (d := c) (e := d) (len := len)
      (rest := payload ++ [lo] ++ [hi]) (by simp), if_neg (by omega), if_pos whole]

theorem exec_frameGapTimeout {held : List Byte} (run : s.phase = .running) (rx : s.line.rx = .receiving held) :
    exec .frameGapTimeout s = .next (if 2000 ≤ s.line.rxAge then discardFrame s else s) := by
  have hrun : s.runs = true := decide_eq_true run
  have passed : s.gapPassed = decide (2000 ≤ s.line.rxAge) := by
    unfold State.gapPassed
    rw [rx]
  change Host.Outcome.next (onlyIf (s.runs && s.gapPassed) discardFrame s) = _
  rw [hrun, passed]
  simp [onlyIf]

/-- Settles O3: HUNT and RECEIVING by the cases of the assembler, the gap by its row, CHECK by `checkFrame_eq`. -/
theorem charactersAreAssembled : Obligations.CharactersAreAssembled := by
  refine ⟨fun b framing s l => ⟨?_, ?_, ?_⟩, fun s held run rx => ⟨?_, ?_⟩, ?_⟩
  · rintro rx rfl lead
    rw [exec_receiveCharacter l, assemble_hunt rx, huntCharacter_begins lead]
    rfl
  · intro rx other
    rw [exec_receiveCharacter l, assemble_hunt rx, huntCharacter_ignored other]
    rfl
  · intro held rx
    refine ⟨fun inTime => ⟨?_, ?_, ?_⟩, fun late => ?_⟩
    · rintro rfl
      rw [exec_receiveCharacter l, assemble_receiving rx, gapOver_eq, decide_eq_false (by omega)]
      rfl
    · rintro rfl four long
      rw [exec_receiveCharacter l, assemble_receiving rx, gapOver_eq, decide_eq_false (by omega),
        if_neg Bool.false_ne_true, if_neg Bool.false_ne_true, addCharacter_length four, if_pos long]
      rfl
    · rintro rfl goesOn
      rw [exec_receiveCharacter l, assemble_receiving rx, gapOver_eq, decide_eq_false (by omega),
        if_neg Bool.false_ne_true, if_neg Bool.false_ne_true]
      rcases goesOn with short | ⟨four, fits⟩ | ⟨a, c, d, e, len, rest, rfl, fits, unfinished⟩
      · rw [addCharacter_short short]
        rfl
      · rw [addCharacter_length four, if_neg (by omega)]
        rfl
      · rw [addCharacter_long (rest := rest ++ [b]) rfl, if_neg (by omega), if_neg]
        · rfl
        · rw [frameLength, List.length_append]
          simp only [List.length_cons, List.length_nil] at unfinished ⊢
          omega
    · have listens : Listens { s with line := { s.line with
          rx := .hunt, frameErrors := min 65535 (s.line.frameErrors + 1) } } := ⟨l.1, l.2⟩
      rw [exec_receiveCharacter l, exec_receiveCharacter listens, assemble_receiving rx, assemble_hunt rfl, gapOver_eq,
        decide_eq_true late, if_pos rfl]
      rfl
  · intro passed
    rw [exec_frameGapTimeout run rx, if_pos passed]
    rfl
  · intro early
    rw [exec_frameGapTimeout run rx, if_neg (by omega)]
  · intro lead a c d len lo hi payload s l length least rx inTime
    rw [exec_receiveCharacter l, assemble_last length least rx inTime, checkFrame_eq]
    refine ⟨fun differs => ?_, fun same reply => ?_⟩
    · rw [if_pos differs]
      rfl
    · rw [if_neg (not_not.mpr same), reply, if_neg (by decide)]
      rfl

/-! ## A message and the characters of its frame -/

/-- The characters of a message's frame but the last, and the last (R165). -/
theorem hostFrame_split {h : Hdr} {m : Message} {held : List Byte} {last : Byte} (frame : hostFrame h m = held ++ [last]) :
    ∃ lo, held = [0xD2, h.addr, h.seq, kindOf m, BitVec.ofNat 8 (payloadOf m).length] ++ payloadOf m ++ [lo]
      ∧ half lo last
        = crc16 ([h.addr, h.seq, kindOf m, BitVec.ofNat 8 (payloadOf m).length] ++ payloadOf m) := by
  unfold hostFrame at frame
  dsimp only at frame
  generalize crc16 ([h.addr, h.seq, kindOf m, BitVec.ofNat 8 (payloadOf m).length] ++ payloadOf m) = crc at frame ⊢
  refine ⟨BitVec.ofNat 8 crc.toNat, ?_⟩
  have split : held ++ [last] = ([0xD2, h.addr, h.seq, kindOf m, BitVec.ofNat 8 (payloadOf m).length] ++ payloadOf m
      ++ [BitVec.ofNat 8 crc.toNat]) ++ [BitVec.ofNat 8 (crc.toNat / 256)] := by
    rw [← frame]
    simp [byte2]
  obtain ⟨rfl, same⟩ := List.append_inj' split rfl
  obtain rfl := (List.cons.inj same).1
  exact ⟨rfl, by simp⟩

/-- Settles O5. -/
theorem frameIsItsMessage : Obligations.FrameIsItsMessage := by
  intro h m s held last l ok frame rx inTime
  obtain ⟨lo, rfl, crc⟩ := hostFrame_split frame
  have most := length_payloadOf m ok
  have length : (payloadOf m).length = (BitVec.ofNat 8 (payloadOf m).length).toNat := by
    rw [BitVec.toNat_ofNat]
    omega
  have hunting : Listens { s with line := { s.line with rx := .hunt } } := ⟨l.1, l.2⟩
  rw [exec_receiveCharacter l, assemble_last length (by omega) rx inTime, checkFrame_eq, if_neg (not_not.mpr crc),
    if_pos rfl, parseMessage_payload m ok, exec_commandOf, frameArrives_listens h m _ hunting, frameEnds_eq]
  rfl

end Characters

end Sys2Proof.Machine
end

section
/-! SUPPORT. What the line interface decides of a frame: heard or not, the address, the cache, the abandoned reply, and the
checks of kind and length (sections 9.1 to 9.5). -/

namespace Sys2Proof.Machine

/-! ## The lengths of payloads -/

theorem parsePairs_length {p : List Byte} {l : List RawPair} (h : parsePairs p = some l) : p.length = 5 * l.length := by
  induction p using parsePairs.induct generalizing l with
  | case1 =>
    obtain rfl := Option.some.inj h
    rfl
  | case2 a b c d e rest ih =>
    obtain ⟨xs, hx, rfl⟩ := Option.map_eq_some_iff.mp h
    have := ih hx
    simp only [List.length_cons]
    omega
  | case3 p notNil notLong =>
    unfold parsePairs at h
    split at h
    · exact absurd rfl notNil
    · exact (notLong _ _ _ _ _ _ rfl).elim
    · cases h

theorem parseOutputs_length {p : List Byte} {l : List RawOutput} (h : parseOutputs p = some l) :
    p.length = 6 * l.length := by
  induction p using parseOutputs.induct generalizing l with
  | case1 =>
    obtain rfl := Option.some.inj h
    rfl
  | case2 a b c d e f rest ih =>
    obtain ⟨xs, hx, rfl⟩ := Option.map_eq_some_iff.mp h
    have := ih hx
    simp only [List.length_cons]
    omega
  | case3 p notNil notLong =>
    unfold parseOutputs at h
    split at h
    · exact absurd rfl notNil
    · exact (notLong _ _ _ _ _ _ _ rfl).elim
    · cases h

theorem parsePoints_length {p : List Byte} {l : List RawPoint} (h : parsePoints p = some l) :
    p.length = 4 * l.length := by
  induction p using parsePoints.induct generalizing l with
  | case1 =>
    obtain rfl := Option.some.inj h
    rfl
  | case2 a b c d rest ih =>
    obtain ⟨xs, hx, rfl⟩ := Option.map_eq_some_iff.mp h
    have := ih hx
    simp only [List.length_cons]
    omega
  | case3 p notNil notLong =>
    unfold parsePoints at h
    split at h
    · exact absurd rfl notNil
    · exact (notLong _ _ _ _ _ rfl).elim
    · cases h

theorem parseActions_length {p : List Byte} {l : List RawAction} (h : parseActions p = some l) :
    p.length = 10 * l.length := by
  induction p using parseActions.induct generalizing l with
  | case1 =>
    obtain rfl := Option.some.inj h
    rfl
  | case2 a b c d e f g k i j rest ih =>
    obtain ⟨xs, hx, rfl⟩ := Option.map_eq_some_iff.mp h
    have := ih hx
    simp only [List.length_cons]
    omega
  | case3 p notNil notLong =>
    unfold parseActions at h
    split at h
    · exact absurd rfl notNil
    · exact (notLong _ _ _ _ _ _ _ _ _ _ _ rfl).elim
    · cases h

theorem payload0_length {m x : Message} {p : List Byte} (h : payload0 m p = some x) : p.length = 0 := by
  unfold payload0 at h
  split at h
  · rfl
  · cases h

theorem payload1_length {m : Byte → Message} {x : Message} {p : List Byte} (h : payload1 m p = some x) :
    p.length = 1 := by
  unfold payload1 at h
  split at h
  · rfl
  · cases h

theorem payload2_length {m : Byte → Byte → Message} {x : Message} {p : List Byte} (h : payload2 m p = some x) :
    p.length = 2 := by
  unfold payload2 at h
  split at h
  · rfl
  · cases h

theorem payloadHalf_length {m : Half → Message} {x : Message} {p : List Byte} (h : payloadHalf m p = some x) :
    p.length = 2 := by
  unfold payloadHalf at h
  split at h
  · rfl
  · cases h

/-- A multiple of a record's size, of 1 to `most` records, behind the fields before them. -/
theorem mem_lengths {before size count most : Nat} (least : 1 ≤ count) (top : count ≤ most) :
    before + size * count ∈ (List.range most).map fun k => before + size * (k + 1) :=
  List.mem_map.mpr ⟨count - 1, List.mem_range.mpr (by omega), by rw [Nat.sub_add_cancel least]⟩

/-- A payload that a layout reads as a message of right length has one of the lengths of its kind (R208). -/
theorem layout_length {kind : Byte} {f : List Byte → Option Message} {p : List Byte} {m : Message}
    (h : layout kind = some f) (read : f p = some m) (ok : m.lengthOk = true) : p.length ∈ payloadLengths kind := by
  unfold payloadLengths
  unfold layout at h
  split at h
  case h_40 => cases h
  all_goals
    rename_i kindNumber
    obtain rfl := Option.some.inj h
    rw [kindNumber]
  case h_1 | h_2 | h_13 | h_14 | h_20 | h_22 | h_23 | h_24 | h_37 | h_38 | h_39 => exact List.mem_singleton.mpr (payload0_length read)
  case h_7 | h_16 | h_31 | h_34 | h_35 | h_36 => exact List.mem_singleton.mpr (payload1_length read)
  case h_4 | h_6 | h_8 | h_18 | h_26 | h_32 => exact List.mem_singleton.mpr (payload2_length read)
  case h_10 | h_15 | h_19 | h_21 | h_25 => exact List.mem_singleton.mpr (payloadHalf_length read)
  case h_3 =>
    obtain ⟨pairs, parsed, rfl⟩ := Option.map_eq_some_iff.mp read
    obtain ⟨least, top⟩ := of_decide_eq_true (p := 1 ≤ pairs.length ∧ pairs.length ≤ 10) ok
    rw [parsePairs_length parsed]
    exact List.mem_map.mpr ⟨pairs.length - 1, List.mem_range.mpr (by omega), by rw [Nat.sub_add_cancel least]⟩
  case h_5 =>
    dsimp only at read
    split at read
    · obtain ⟨records, parsed, rfl⟩ := Option.map_eq_some_iff.mp read
      obtain ⟨least, top⟩ := of_decide_eq_true (p := 1 ≤ records.length ∧ records.length ≤ 8) ok
      rw [List.length_cons, parseOutputs_length parsed, Nat.add_comm]
      exact mem_lengths least top
    · cases read
  case h_9 =>
    dsimp only at read
    split at read
    · obtain ⟨points, parsed, rfl⟩ := Option.map_eq_some_iff.mp read
      obtain ⟨least, top⟩ := of_decide_eq_true (p := 1 ≤ points.length ∧ points.length ≤ 12) ok
      rw [List.length_cons, parsePoints_length parsed, Nat.add_comm]
      exact mem_lengths least top
    · cases read
  case h_11 =>
    obtain ⟨records, parsed, rfl⟩ := Option.map_eq_some_iff.mp read
    obtain ⟨least, top⟩ := of_decide_eq_true (p := 1 ≤ records.length ∧ records.length ≤ 4) ok
    rw [parseActions_length parsed]
    exact List.mem_map.mpr ⟨records.length - 1, List.mem_range.mpr (by omega), by rw [Nat.sub_add_cancel least]⟩
  case h_33 =>
    dsimp only at read
    split at read
    · next slot mode rest =>
      obtain rfl := Option.some.inj read
      obtain ⟨five, eleven⟩ := of_decide_eq_true (p := (rest.take 5).length = 5 ∧ (rest.drop 5).length = 11) ok
      rw [List.length_drop] at eleven
      refine List.mem_singleton.mpr ?_
      simp only [List.length_cons]
      omega
    · cases read
  all_goals
    dsimp only at read
    split at read
    · exact List.mem_singleton.mpr rfl
    · cases read

theorem kindKnown (kind : Byte) : (layout kind).isNone = decide (payloadLengths kind = []) := by
  revert kind
  decide +kernel

/-- A payload of a length that its known kind does not allow is refused with BAD_LENGTH (R170, R208). -/
theorem parseMessage_badLength {kind : Byte} {p : List Byte} (known : payloadLengths kind ≠ [])
    (length : p.length ∉ payloadLengths kind) : parseMessage kind p = .error .badLength := by
  unfold parseMessage
  split
  · next unknown =>
    have := kindKnown kind
    rw [unknown] at this
    simp [known] at this
  · next f found =>
    split
    · rfl
    · next m read =>
      unfold lineCheck
      cases ok : m.lengthOk with
      | false => rfl
      | true => exact absurd (layout_length found read ok) length

theorem parseMessage_badKind {kind : Byte} {p : List Byte} (unknown : payloadLengths kind = []) :
    parseMessage kind p = .error .badKind := by
  have none := kindKnown kind
  rw [unknown] at none
  unfold parseMessage
  rw [Option.isNone_iff_eq_none.mp (none.trans rfl)]

/-! ## Hearing -/

section Hearing

variable {s : State}

theorem hear_sending {frame : List Byte} {age : Nat} (sending : s.line.reply = .sending frame age) : hear s = none := by
  unfold hear
  split
  · rfl
  · rw [sending]

theorem hear_waiting {frame : List Byte} {age : Nat} (run : s.phase = .running)
    (waiting : s.line.reply = .waiting frame age) :
    hear s = some (match s.line.pendingReset with
      | some m => ⟨takeReset m (s.setLine { s.line with reply := .idle }), true⟩
      | none => ⟨s.setLine { s.line with reply := .idle }, false⟩) := by
  unfold hear
  rw [if_neg (fun stopped => stopped run), waiting]
  dsimp only
  rw [show (s.setLine { s.line with reply := .idle }).line.pendingReset = s.line.pendingReset from rfl]
  cases s.line.pendingReset <;> rfl

theorem hear_idle (l : Listens s) : hear s = some ⟨s, false⟩ := by
  unfold hear
  rw [if_neg (fun stopped => stopped l.1), l.2]

/-- What a row of the line does depends on what is heard. -/
theorem lineRow_hears {c : Instr} (row : (∃ b framing, c = .receiveCharacter b framing) ∨ ∃ h m, c = commandOf h m) :
    ∃ act : State → State, ∀ s, exec c s = .next (match hear s with
      | none => s
      | some x => if x.lost then x.state else act x.state) := by
  rcases row with ⟨b, framing, rfl⟩ | ⟨h, m, rfl⟩
  · exact ⟨assemble b framing, fun s => rfl⟩
  · refine ⟨fun u => judgeFrame ⟨h.addr, h.seq, kindOf m, lineCheck m⟩ (frameEnds u), fun s => ?_⟩
    rw [exec_commandOf]
    rfl

theorem destOf_other {addr : Byte} (notNode : ¬ NamesNode addr s) (notGroup : ¬ NamesGroup addr s) :
    destOf addr s = .other := by
  unfold destOf
  rw [if_neg fun zero => notGroup (.inl zero)]
  split
  · next range =>
    refine if_neg fun member => notGroup (.inr ?_)
    obtain ⟨least, most⟩ := range
    have least := BitVec.le_def.mp least
    have most := BitVec.le_def.mp most
    simp only [BitVec.toNat_ofNat] at least most
    exact ⟨⟨addr.toNat - 0x40, by omega⟩, by dsimp only; omega, member⟩
  · refine if_neg fun own => notNode ?_
    obtain ⟨zero, last, same⟩ := own
    have lo : s.line.nodeAddr.toNat ≠ 0 := fun e => zero (BitVec.eq_of_toNat_eq e)
    have hi : s.line.nodeAddr.toNat ≠ 63 := fun e => last (BitVec.eq_of_toNat_eq e)
    have bound := s.line.nodeAddr.isLt
    refine ⟨by omega, by omega, ?_⟩
    rw [same, State.ownAddr, BitVec.toNat_setWidth]
    omega

theorem ownAddr_of_names {addr : Byte} (names : NamesNode addr s) : s.ownAddr = addr := by
  obtain ⟨_, hi, same⟩ := names
  apply BitVec.eq_of_toNat_eq
  rw [same, State.ownAddr, BitVec.toNat_setWidth]
  omega

end Hearing

/-- A complete frame of a kind or length that names no message is refused like a whole message (R170). -/
theorem exec_lastCharacter_refused {h : Hdr} {kind len lo hi : Byte} {payload : List Byte} {s : State} {st : Status}
    (new : TakesNew h kind s) (length : payload.length = len.toNat) (least : len.toNat ≤ 60)
    (rx : s.line.rx = .receiving ([0xD2, h.addr, h.seq, kind, len] ++ payload ++ [lo]))
    (inTime : s.line.rxAge * rateOf s.line.lineRate ≤ 2000 * rateOf s.line.lineRate + 10000000)
    (crc : half lo hi = crc16 ([h.addr, h.seq, kind, len] ++ payload)) (bad : parseMessage kind payload = .error st) :
    exec (.receiveCharacter hi false) s
      = .next (answer h.seq kind ⟨st, []⟩ (State.taken { s with line := { s.line with rx := .hunt } })) := by
  obtain ⟨l, names, fresh⟩ := new
  have ends : (s.setLine { s.line with rxAge := 0 }).setLine
      { (s.setLine { s.line with rxAge := 0 }).line with rx := .hunt }
      = frameEnds { s with line := { s.line with rx := .hunt } } := by
    rw [frameEnds_eq]
    rfl
  have named : destOf h.addr (frameEnds { s with line := { s.line with rx := .hunt } }) = .node := by
    rw [frameEnds_eq]
    exact destOf_node names
  rw [exec_receiveCharacter l, assemble_last length least rx inTime, checkFrame_eq, if_neg (not_not.mpr crc),
    if_pos rfl, bad, ends, judgeFrame_node (f := ⟨h.addr, h.seq, kind, .error st⟩) named]
  change Host.Outcome.next (takeNode _ (State.taken { s with line := { s.line with rx := .hunt } })) = _
  unfold takeNode
  dsimp only
  rw [taken_cached, show LineUnit.cached h.seq kind { s.line with rx := .hunt } = none from fresh]

/-- Settles O6: hearing by `hear`, the address by `destOf`, the checks by `parseMessage`. -/
theorem lineInterfaceDecides : Obligations.LineInterfaceDecides := by
  refine ⟨fun h m s => ⟨fun deaf => ?_, fun l notNode notGroup => ?_⟩, fun c s frame age row run waiting => ?_,
    fun h m s payload l names seq cache => ?_, fun h m s new => ⟨fun bad => ?_, fun ok reserved => ?_⟩,
    fun h kind len lo hi payload s new length least rx inTime crc => ⟨fun unknown => ?_, fun known bad => ?_⟩⟩
  · have silent : hear s = none := by
      rcases deaf with stopped | ⟨frame, age, sending⟩
      · exact hear_of_stopped stopped
      · exact hear_sending sending
    rw [exec_commandOf, frameArrives, silent]
  · have other : destOf h.addr (frameEnds s) = .other := by
      rw [frameEnds_eq]
      exact destOf_other notNode notGroup
    rw [exec_commandOf, frameArrives_listens h m s l, judgeFrame]
    dsimp only
    rw [other, frameEnds_eq]
    rfl
  · obtain ⟨act, does⟩ := lineRow_hears row
    refine ⟨fun none => ?_, fun mode pending => ?_⟩
    · have idle : Listens { s with line := { s.line with reply := .idle } } := ⟨run, rfl⟩
      rw [does, does, hear_waiting run waiting, hear_idle idle, none]
      rfl
    · rw [does, hear_waiting run waiting, pending]
      rfl
  · have held : s.taken.line.cached h.seq (kindOf m) = some ⟨h.seq, kindOf m, payload⟩ := by
      rw [taken_cached, LineUnit.cached, cache]
      exact if_pos ⟨seq, rfl, rfl⟩
    rw [exec_commandOf, frameArrives_node h m s l names, takeNode]
    dsimp only
    rw [held]
    dsimp only
    rw [queueReply, taken_ownAddr, ownAddr_of_names names]
  · have failed : lineCheck m = .error .badLength := by rw [lineCheck, bad]; rfl
    unfold Refuses Answers
    rw [exec_commandOf, frameArrives_failed h m s new _ failed]
  · have failed : lineCheck m = .error .badValue := by rw [lineCheck, ok, reserved]; rfl
    unfold Refuses Answers
    rw [exec_commandOf, frameArrives_failed h m s new _ failed]
  · exact exec_lastCharacter_refused new length least rx inTime crc (parseMessage_badKind unknown)
  · exact exec_lastCharacter_refused new length least rx inTime crc (parseMessage_badLength known bad)

end Sys2Proof.Machine
end

section
/-! SUPPORT. The edit session: opening it, filling the buffers, and its expiry (section 2.2). -/

namespace Sys2Proof.Machine

/-! ## Numbers and records in bytes -/

theorem chanOf_eq_some {n : Nat} {c : Chan} : chanOf n = some c ↔ n = chanNumber c := by
  unfold chanOf chanNumber
  constructor
  · intro h
    obtain ⟨range, eq⟩ := Option.dite_none_right_eq_some.mp h
    obtain rfl := Option.some.inj eq
    exact (Nat.sub_add_cancel range.1).symm
  · rintro rfl
    exact dif_pos ⟨by omega, by omega⟩

theorem chanOf_isSome {n : Nat} : (chanOf n).isSome ↔ 1 ≤ n ∧ n ≤ 24 := by
  rw [Option.isSome_iff_exists]
  constructor
  · rintro ⟨c, h⟩
    rw [chanOf_eq_some.mp h]
    exact ⟨Nat.succ_pos _, c.isLt⟩
  · intro range
    exact ⟨⟨n - 1, by omega⟩, chanOf_eq_some.mpr (Nat.sub_add_cancel range.1).symm⟩

/-- A record sent and an action have the same bytes when they agree field by field (R208, R209). -/
theorem Action.bytes_eq_iff {a : Action} {r : RawAction} (range : a.inRange) :
    a.bytes = actionRecordBytes r ↔ r.channel.toNat = chanNumber a.channel ∧ a.target = r.target.toNat
      ∧ a.time = r.time.toNat ∧ a.delay = r.delay.toNat ∧ a.curve = r.curve.toNat := by
  obtain ⟨target, time, delay, curve⟩ := range
  have channel : chanNumber a.channel ≤ 24 := a.channel.isLt
  have h1 := r.channel.isLt
  have h2 := r.target.isLt
  have h3 := r.time.isLt
  have h4 := r.delay.isLt
  have h5 := r.curve.isLt
  simp only [Action.bytes, actionRecordBytes, byte1, byte2, byte4, List.cons_append, List.nil_append, List.cons.injEq,
    ← BitVec.toNat_inj, BitVec.toNat_ofNat, and_true]
  omega

theorem actionRecordOf_eq_some {r : RawAction} {a : Action} :
    actionRecordOf r = some a ↔ a.inRange ∧ a.bytes = actionRecordBytes r := by
  constructor
  · intro h
    have range := actionRecordOf_inRange h
    refine ⟨range, (Action.bytes_eq_iff range).mpr ?_⟩
    unfold actionRecordOf at h
    split at h
    · cases h
    · next c channel =>
      obtain ⟨_, eq⟩ := Option.ite_none_right_eq_some.mp h
      obtain rfl := Option.some.inj eq
      exact ⟨chanOf_eq_some.mp channel, rfl, rfl, rfl, rfl⟩
  · rintro ⟨range, same⟩
    obtain ⟨channel, target, time, delay, curve⟩ := (Action.bytes_eq_iff range).mp same
    unfold actionRecordOf
    rw [chanOf_eq_some.mpr channel]
    dsimp only
    rw [← target, ← time, ← delay, ← curve]
    exact if_pos range

theorem editOf_set {r : RawAction} {a : Action} :
    editOf r = some (.set a) ↔ r.target ≠ 0xFFFF ∧ a.inRange ∧ a.bytes = actionRecordBytes r := by
  unfold editOf
  split
  · next removal =>
    constructor
    · intro h
      split at h
      · cases h
      · split at h <;> cases h
    · rintro ⟨set, _⟩
      exact absurd removal set
  · next set =>
    rw [← actionRecordOf_eq_some, and_iff_right set]
    simp

theorem editOf_isSome {r : RawAction} : (editOf r).isSome ↔ actionRecordOk r := by
  unfold editOf actionRecordOk
  rw [← chanOf_isSome]
  split
  · cases chanOf r.channel.toNat <;> simp
  · unfold actionRecordOf
    cases chanOf r.channel.toNat <;> simp

theorem editOf_channel {r : RawAction} {e : BufferEdit} (h : editOf r = some e) :
    r.channel.toNat = chanNumber e.channel := by
  unfold editOf at h
  split at h
  · split at h
    · cases h
    · next c channel =>
      obtain ⟨_, eq⟩ := Option.ite_none_right_eq_some.mp h
      obtain rfl := Option.some.inj eq
      exact chanOf_eq_some.mp channel
  · obtain ⟨a, record, rfl⟩ := Option.map_eq_some_iff.mp h
    obtain ⟨range, same⟩ := actionRecordOf_eq_some.mp record
    exact ((Action.bytes_eq_iff range).mp same).1

/-! ## EDIT_CUE and EDIT_CURVE -/

section Open

variable {cue : Half} {id count : Byte} {s : State}

theorem editCueOp_open (busy : s.editor.session ≠ .idle) : editCueOp cue s = refuse .wrongState s := if_pos busy

theorem editCueOp_bad (idle : s.editor.session = .idle) (bad : cue.toNat < 1 ∨ 9999 < cue.toNat) :
    editCueOp cue s = refuse .badValue s := by
  unfold editCueOp
  rw [if_neg (not_not.mpr idle), if_pos bad]

theorem editCueOp_found {q : Cue} (idle : s.editor.session = .idle) (lo : 1 ≤ cue.toNat) (hi : cue.toNat ≤ 9999)
    (found : s.working.findCue cue.toNat = some q) :
    editCueOp cue s = (editing (.cue cue.toNat q.follow q.actions) s, ⟨.done, [1] ++ byte1 q.actions.length⟩) := by
  unfold editCueOp
  rw [if_neg (not_not.mpr idle), if_neg (by omega), found]
  rfl

theorem editCueOp_new (idle : s.editor.session = .idle) (lo : 1 ≤ cue.toNat) (hi : cue.toNat ≤ 9999)
    (fresh : s.working.findCue cue.toNat = none) :
    editCueOp cue s = (editing (.cue cue.toNat none []) s, ⟨.done, [0, 0]⟩) := by
  unfold editCueOp
  rw [if_neg (not_not.mpr idle), if_neg (by omega), fresh]
  rfl

theorem editCurveOp_open (busy : s.editor.session ≠ .idle) : editCurveOp id count s = refuse .wrongState s :=
  if_pos busy

theorem editCurveOp_bad (idle : s.editor.session = .idle)
    (bad : id.toNat < 1 ∨ 15 < id.toNat ∨ count.toNat < 2 ∨ 32 < count.toNat) :
    editCurveOp id count s = refuse .badValue s := by
  unfold editCurveOp
  rw [if_neg (not_not.mpr idle), if_pos (by omega)]

theorem editCurveOp_good (idle : s.editor.session = .idle) (lo : 1 ≤ id.toNat) (hi : id.toNat ≤ 15)
    (two : 2 ≤ count.toNat) (max : count.toNat ≤ 32) :
    editCurveOp id count s = (editing (.curve id.toNat (List.replicate count.toNat none)) s, ⟨.done, []⟩) := by
  unfold editCurveOp
  rw [if_neg (not_not.mpr idle), if_neg (by omega)]

end Open

theorem findCue_eq_none {n : Nat} {w : Show} : w.findCue n = none ↔ ∀ q ∈ w.cues, q.number ≠ n := by
  simp [Show.findCue]

/-! ## The idle timer -/

theorem exec_editIdleTimeout (s : State) :
    exec .editIdleTimeout s = .next (onlyIf (s.runs && s.editDue) expireEdit s) := rfl

theorem exec_editIdleTimeout_due {s : State} (running : s.phase = .running) (session : s.editor.session ≠ .idle)
    (due : 10000 ≤ since s.now s.editor.idleFrom) : exec .editIdleTimeout s = .next (expireEdit s) := by
  have runs : s.runs = true := decide_eq_true running
  have editDue : s.editDue = true := decide_eq_true ⟨session, due⟩
  rw [exec_editIdleTimeout, runs, editDue]
  rfl

theorem exec_editIdleTimeout_early {s : State} (early : since s.now s.editor.idleFrom < 10000) :
    exec .editIdleTimeout s = .next s := by
  have editDue : s.editDue = false := decide_eq_false fun due => by omega
  rw [exec_editIdleTimeout, editDue, Bool.and_false]
  rfl

theorem expireEdit_cue {s : State} {n : Nat} {follow : Option Nat} {actions : List Action}
    (session : s.editor.session = .cue n follow actions) : expireEdit s = offer (.editExpired true n) (closeSession s) := by
  unfold expireEdit
  rw [session]

theorem expireEdit_curve {s : State} {id : Nat} {places : List (Option Point)}
    (session : s.editor.session = .curve id places) : expireEdit s = offer (.editExpired false id) (closeSession s) := by
  unfold expireEdit
  rw [session]

/-- Settles O17: by the checks of the two messages in their order, and by the session that is open. -/
theorem editSessionsOpenAndExpire : Obligations.EditSessionsOpenAndExpire := by
  refine ⟨fun h s => ⟨fun cue takes => ?_, fun id count takes => ?_⟩, fun s running session => ⟨fun due => ?_, ?_⟩⟩
  · have answers {t : State} {st : Status} {data : List Byte} (run : editCueOp cue s.taken = (t, ⟨st, data⟩)) :
        Answers (.editCue h cue) h 0x12 s t st data := answers_new h (.editCue cue) s t st data takes rfl run
    refine ⟨fun idle q found number lo hi => ?_, fun idle lo hi fresh => ?_, fun busy => ?_, fun idle bad => ?_⟩
    · rw [← editing_taken, number]
      exact answers (editCueOp_found (by rwa [taken_editor]) (number ▸ lo) (number ▸ hi) (by rwa [taken_working]))
    · rw [← editing_taken]
      exact answers (editCueOp_new (by rwa [taken_editor]) lo hi (findCue_eq_none.mpr (by rwa [taken_working])))
    · exact answers (editCueOp_open (by rwa [taken_editor]))
    · exact answers (editCueOp_bad (by rwa [taken_editor]) bad)
  · have answers {t : State} {st : Status} {data : List Byte} (run : editCurveOp id count s.taken = (t, ⟨st, data⟩)) :
        Answers (.editCurve h id count) h 0x10 s t st data :=
      answers_new h (.editCurve id count) s t st data takes rfl run
    refine ⟨fun idle lo hi two max => ?_, fun busy => ?_, fun idle bad => ?_⟩
    · rw [← editing_taken]
      exact answers (editCurveOp_good (by rwa [taken_editor]) lo hi two max)
    · exact answers (editCurveOp_open (by rwa [taken_editor]))
    · exact answers (editCurveOp_bad (by rwa [taken_editor]) bad)
  · rw [exec_editIdleTimeout_due running session due]
    exact ⟨fun n follow actions open_ => by rw [expireEdit_cue open_]; rfl,
      fun id places open_ => by rw [expireEdit_curve open_]; rfl⟩
  · exact exec_editIdleTimeout_early

/-! ## CUE_ACTIONS -/

section CueActions

variable {records : List RawAction} {s : State} {n : Nat} {follow : Option Nat} {old : List Action}

/-- The edits that good records ask for, one for each record in its place (R36). -/
theorem editsOf_records (ok : ∀ r ∈ records, actionRecordOk r) :
    ∃ edits, allSome (records.map editOf) = some edits ∧ records.map editOf = edits.map some := by
  cases read : allSome (records.map editOf) with
  | none =>
    obtain ⟨r, sent, bad⟩ := List.mem_map.mp (allSome_eq_none.mp read)
    have good := editOf_isSome.mpr (ok r sent)
    rw [bad] at good
    cases good
  | some edits => exact ⟨edits, rfl, allSome_eq_some read⟩

theorem edit_of_record {edits : List BufferEdit} (read : records.map editOf = edits.map some) {e : BufferEdit} :
    e ∈ edits ↔ ∃ r ∈ records, editOf r = some e := by
  rw [← List.mem_map (f := editOf), read, List.mem_map]
  simp

/-- The records name different channels exactly if the edits do. -/
theorem edits_distinct {edits : List BufferEdit} (read : records.map editOf = edits.map some) :
    (edits.map (·.channel)).Nodup ↔ (records.map (·.channel)).Nodup := by
  have numbers : records.map (fun r => r.channel.toNat) = edits.map fun e => chanNumber e.channel := by
    induction records generalizing edits with
    | nil => cases edits <;> simp_all
    | cons r rest ih =>
      cases edits with
      | nil => cases read
      | cons e more =>
        obtain ⟨head, tail⟩ := List.cons.inj read
        rw [List.map_cons, List.map_cons, ih tail, editOf_channel head]
  have inChan : Function.Injective chanNumber := fun a b h => Fin.ext (Nat.succ.inj h)
  have inByte : Function.Injective (BitVec.toNat (w := 8)) := fun a b h => BitVec.eq_of_toNat_eq h
  rw [← List.nodup_map_iff inChan, ← List.nodup_map_iff inByte, List.map_map, List.map_map]
  exact iff_of_eq (congrArg List.Nodup numbers.symm)

theorem cueActionsOp_no_cue (noCue : ∀ n f actions, s.editor.session ≠ .cue n f actions) :
    cueActionsOp records s = refuse .wrongState s := by
  unfold cueActionsOp
  cases e : s.editor.session with
  | idle => rfl
  | cue n f actions => exact absurd e (noCue n f actions)
  | curve id places => rfl

theorem cueActionsOp_bad (session : s.editor.session = .cue n follow old) (bad : ∃ r ∈ records, ¬ actionRecordOk r) :
    cueActionsOp records s = refuse .badValue s := by
  obtain ⟨r, sent, bad⟩ := bad
  have read : allSome (records.map editOf) = none := by
    rw [allSome_eq_none, List.mem_map]
    exact ⟨r, sent, Option.not_isSome_iff_eq_none.mp fun good => bad (editOf_isSome.mp good)⟩
  unfold cueActionsOp
  rw [session]
  dsimp only
  rw [read]

theorem cueActionsOp_read {edits : List BufferEdit} (session : s.editor.session = .cue n follow old)
    (read : allSome (records.map editOf) = some edits) :
    cueActionsOp records s = if !distinctChannels edits then refuse .duplicate s
      else (editing (.cue n follow (edits.foldl applyEdit old)) s,
        ⟨.done, byte1 (edits.foldl applyEdit old).length⟩) := by
  unfold cueActionsOp
  rw [session]
  dsimp only
  rw [read]

end CueActions

/-- Settles O18: the edits of good records of different channels are applied to the buffer in their order. -/
theorem cueActionsFillTheBuffer : Obligations.CueActionsFillTheBuffer := by
  have answers {h : Hdr} {records : List RawAction} {s : State} (takes : TakesNew h 0x13 s) (lo : 1 ≤ records.length)
      (hi : records.length ≤ 4) {t : State} {st : Status} {data : List Byte}
      (run : cueActionsOp records s.taken = (t, ⟨st, data⟩)) : Answers (.cueActions h records) h 0x13 s t st data :=
    answers_new h (.cueActions records) s t st data takes (lineCheck_ok _ (decide_eq_true ⟨lo, hi⟩) rfl) run
  constructor
  · intro h records s n follow old takes lo hi session order good different
    obtain ⟨edits, all, read⟩ := editsOf_records good
    have distinct := (edits_distinct read).mpr different
    obtain ⟨order', mem⟩ := applyEdits order distinct
    refine ⟨edits.foldl applyEdit old, ?_, order', fun a => ?_⟩
    · refine answers takes lo hi ?_
      rw [← editing_taken, cueActionsOp_read (by rwa [taken_editor]) all, (distinctChannels_iff edits).mpr distinct]
      rfl
    · rw [mem, edit_of_record read]
      refine or_congr (exists_congr fun r => and_congr_right fun _ => editOf_set) (and_congr_right fun _ => ?_)
      constructor
      · intro others r sent same
        obtain ⟨e, he⟩ := Option.isSome_iff_exists.mp (editOf_isSome.mpr (good r sent))
        refine others e ((edit_of_record read).mpr ⟨r, sent, he⟩) (Fin.ext (Nat.succ.inj ?_))
        exact (editOf_channel he).symm.trans same
      · intro others e he same
        obtain ⟨r, sent, hr⟩ := (edit_of_record read).mp he
        exact others r sent (by rw [editOf_channel hr, same]; rfl)
  · intro h records s takes lo hi
    refine ⟨fun noCue => answers takes lo hi (cueActionsOp_no_cue (by rwa [taken_editor])),
      fun n follow old session => ⟨fun bad => ?_, fun good same => ?_⟩⟩
    · exact answers takes lo hi (cueActionsOp_bad (by rwa [taken_editor]) bad)
    · obtain ⟨edits, all, read⟩ := editsOf_records good
      have twice : distinctChannels edits = false :=
        Bool.eq_false_iff.mpr fun distinct => same ((edits_distinct read).mp ((distinctChannels_iff edits).mp distinct))
      refine answers takes lo hi ?_
      rw [cueActionsOp_read (by rwa [taken_editor]) all, twice]
      rfl

/-! ## CURVE_POINTS -/

section CurvePoints

variable {first : Byte} {points : List RawPoint} {s : State} {id : Nat} {places : List (Option Point)}

/-- The point that a record of CURVE_POINTS stands for. -/
def sentPoint (p : RawPoint) : Point := ⟨p.x.toNat, p.y.toNat⟩

theorem pointOf_good {p : RawPoint} (x : p.x.toNat ≤ 1000) (y : p.y.toNat ≤ 1000) : pointOf p = some (sentPoint p) :=
  if_pos ⟨x, y⟩

theorem pointsOf_good (good : ∀ p ∈ points, p.x.toNat ≤ 1000 ∧ p.y.toNat ≤ 1000) :
    allSome (points.map pointOf) = some (points.map sentPoint) := by
  have read : points.map pointOf = (points.map sentPoint).map some := by
    rw [List.map_map]
    exact List.map_congr_left fun p hp => pointOf_good (good p hp).1 (good p hp).2
  rw [read]
  exact allSome_map _

theorem pointsOf_bad (bad : ∃ p ∈ points, 1000 < p.x.toNat ∨ 1000 < p.y.toNat) :
    allSome (points.map pointOf) = none := by
  obtain ⟨p, sent, bad⟩ := bad
  rw [allSome_eq_none, List.mem_map]
  exact ⟨p, sent, if_neg (by omega)⟩

theorem curvePointsOp_no_curve (noCurve : ∀ id places, s.editor.session ≠ .curve id places) :
    curvePointsOp first points s = refuse .wrongState s := by
  unfold curvePointsOp
  cases e : s.editor.session with
  | idle => rfl
  | cue n f actions => rfl
  | curve id places => exact absurd e (noCurve id places)

theorem curvePointsOp_out_of_range (session : s.editor.session = .curve id places)
    (bad : ∃ p ∈ points, 1000 < p.x.toNat ∨ 1000 < p.y.toNat) : curvePointsOp first points s = refuse .badValue s := by
  unfold curvePointsOp
  rw [session]
  dsimp only
  rw [pointsOf_bad bad]

theorem curvePointsOp_good (session : s.editor.session = .curve id places)
    (good : ∀ p ∈ points, p.x.toNat ≤ 1000 ∧ p.y.toNat ≤ 1000) :
    curvePointsOp first points s =
      if first.toNat + points.length > places.length then refuse .badValue s
      else (editing (.curve id (writePlaces places first.toNat (points.map sentPoint))) s,
        ⟨.done, byte1 ((writePlaces places first.toNat (points.map sentPoint)).countP Option.isSome)⟩) := by
  unfold curvePointsOp
  rw [session]
  dsimp only
  rw [pointsOf_good good]
  dsimp only
  rw [List.length_map]

theorem writePlaces_inside {first k : Nat} {points : List Point} {p : Point} (fits : first ≤ places.length)
    (hp : points[k]? = some p) : (writePlaces places first points)[first + k]? = some (some p) := by
  have inside : k < points.length := (List.getElem?_eq_some_iff.mp hp).1
  have length : (places.take first).length = first := List.length_take_of_le fits
  unfold writePlaces
  rw [List.append_assoc, List.getElem?_append_right (by omega), length, Nat.add_sub_cancel_left,
    List.getElem?_append_left (by rwa [List.length_map]), List.getElem?_map, hp]
  rfl

theorem writePlaces_outside {first j : Nat} {points : List Point} (fits : first + points.length ≤ places.length)
    (outside : j < first ∨ first + points.length ≤ j) : (writePlaces places first points)[j]? = places[j]? := by
  have length : (places.take first).length = first := List.length_take_of_le (by omega)
  unfold writePlaces
  rcases outside with before | after
  · rw [List.append_assoc, List.getElem?_append_left (by omega), List.getElem?_take_of_lt before]
  · rw [List.getElem?_append_right (by simp; omega), List.getElem?_drop]
    congr 1
    simp
    omega

end CurvePoints

/-- Settles O20: the points go into the places from `first` upward, and no other place is touched. -/
theorem curvePointsFillPlaces : Obligations.CurvePointsFillPlaces := by
  intro h first points s takes lo hi
  have answers {t : State} {st : Status} {data : List Byte} (run : curvePointsOp first points s.taken = (t, ⟨st, data⟩)) :
      Answers (.curvePoints h first points) h 0x11 s t st data :=
    answers_new h (.curvePoints first points) s t st data takes (lineCheck_ok _ (decide_eq_true ⟨lo, hi⟩) rfl) run
  refine ⟨fun noCurve => answers (curvePointsOp_no_curve (by rwa [taken_editor])),
    fun id places session => ⟨fun bad => answers ?_, fun fits good => ?_⟩⟩
  · by_cases range : ∃ p ∈ points, 1000 < p.x.toNat ∨ 1000 < p.y.toNat
    · exact curvePointsOp_out_of_range (by rwa [taken_editor]) range
    · have good : ∀ p ∈ points, p.x.toNat ≤ 1000 ∧ p.y.toNat ≤ 1000 := fun p hp => by
        by_contra out
        exact range ⟨p, hp, by omega⟩
      rw [curvePointsOp_good (by rwa [taken_editor]) good, if_pos (bad.resolve_right range)]
      rfl
  · have length : (points.map sentPoint).length = points.length := List.length_map _
    refine ⟨writePlaces places first.toNat (points.map sentPoint), length_writePlaces (by rwa [length]),
      fun k p hp => writePlaces_inside (by omega) (by rw [List.getElem?_map, hp]; rfl),
      fun j outside => writePlaces_outside (by rwa [length]) (by rwa [length]), answers ?_⟩
    rw [← editing_taken, curvePointsOp_good (by rwa [taken_editor]) good, if_neg (by omega)]

end Sys2Proof.Machine
end

section
/-! SUPPORT. EDIT_COMMIT, DELETE_CUE and DROP_CURVE: their checks in their order and the pools after them (sections 2.3 and
2.4). -/

namespace Sys2Proof.Machine

/-! ## The pools -/

/-- What the cue of a number weighs is at most what the cues weigh together. -/
theorem weightAt_le {weight : Cue → Nat} {n : Nat} {l : List Cue} (order : CuesInOrder l) :
    weightAt weight n l ≤ (l.map weight).sum := by
  have := removeCue_weight weight (n := n) order
  omega

theorem findCue_of_mem {w : Show} {q : Cue} (order : CuesInOrder w.cues) (listed : q ∈ w.cues) :
    w.findCue q.number = some q := by
  cases found : w.findCue q.number with
  | none => exact absurd rfl (findCue_eq_none.mp found q listed)
  | some x =>
    obtain ⟨mem, number⟩ := findCue_mem found
    have apart : (w.cues.map (·.number)).Nodup := order.imp ne_of_lt
    rw [List.inj_on_of_nodup_map apart mem listed number]

theorem weightAt_of_mem {weight : Cue → Nat} {w : Show} {q : Cue} (order : CuesInOrder w.cues) (listed : q ∈ w.cues) :
    weightAt weight q.number w.cues = weight q := by
  have found : w.cues.find? (·.number == q.number) = some q := findCue_of_mem order listed
  rw [weightAt, found]
  rfl

theorem pointCount_le {w : Show} {k : Fin 15} : pointCount (Table.at w.curves k) ≤ w.pointsUsed := by
  have := Show.pointsUsed_put w k none
  have : pointCount none = 0 := rfl
  omega

/-- The points left after a curve is replaced. -/
theorem Show.freePoints_put (w : Show) (k : Fin 15) (c : Option (List Point)) :
    Show.freePoints { w with curves := Table.put w.curves k c }
      = 240 - (w.pointsUsed - pointCount (Table.at w.curves k) + pointCount c) := by
  have total := Show.pointsUsed_put w k c
  have := pointCount_le (w := w) (k := k)
  unfold Show.freePoints
  omega

/-! ## EDIT_COMMIT -/

theorem kept_taken (s : State) (st : Status) :
    commitRefused st s.taken = ({ s.taken with editor := { s.editor with idleFrom := s.now } }, ⟨st, []⟩) := by
  rw [commitRefused, taken_editor, editing_taken]

theorem commitDone_taken (w : Show) (s : State) : closeSession (s.taken.setWorking w)
    = { s.taken with working := w, editor := { s.editor with session := .idle } } := by
  rw [closeSession, State.setWorking_editor, taken_editor]
  rfl

section Commit

variable {s : State} {n : Nat} {follow : Option Nat} {actions : List Action}

theorem editCommitOp_idle (idle : s.editor.session = .idle) : editCommitOp s = refuse .wrongState s := by
  unfold editCommitOp
  rw [idle]

theorem editCommitOp_cue_refused {st : Status} (session : s.editor.session = .cue n follow actions)
    (bad : cueCommitCheck n actions s.working = some st) : editCommitOp s = commitRefused st s := by
  unfold editCommitOp
  rw [session]
  dsimp only
  rw [bad]

theorem editCommitOp_cue (session : s.editor.session = .cue n follow actions)
    (good : cueCommitCheck n actions s.working = none) :
    editCommitOp s =
      (closeSession (s.setWorking { s.working with cues := insertCue ⟨n, follow, actions⟩ s.working.cues }),
        ⟨.done, commitData (if (s.working.findCue n).isSome then 1 else 2)
          { s.working with cues := insertCue ⟨n, follow, actions⟩ s.working.cues }⟩) := by
  unfold editCommitOp
  rw [session]
  dsimp only
  rw [good]

theorem editCommitOp_curve_refused {st : Status} {id : Nat} {places : List (Option Point)}
    (session : s.editor.session = .curve id places) (bad : curveCommitCheck id (allSome places) s = some st) :
    editCommitOp s = commitRefused st s := by
  unfold editCommitOp
  rw [session]
  dsimp only
  rw [bad]

theorem editCommitOp_curve {id : Nat} {places : List (Option Point)} (session : s.editor.session = .curve id places)
    (good : curveCommitCheck id (allSome places) s = none) :
    editCommitOp s = (closeSession (s.setWorking (s.working.setCurve id (allSome places))),
      ⟨.done, commitData 0 (s.working.setCurve id (allSome places))⟩) := by
  unfold editCommitOp
  rw [session]
  dsimp only
  rw [good]

theorem answers_commit {h : Hdr} {t : State} {st : Status} {data : List Byte} (takes : TakesNew h 0x15 s)
    (run : editCommitOp s.taken = (t, ⟨st, data⟩)) : Answers (.editCommit h) h 0x15 s t st data :=
  answers_new h .editCommit s t st data takes rfl run

/-- A cue commit that a check refuses (R42, R45). -/
theorem answers_cue_refused {h : Hdr} {st : Status} (takes : TakesNew h 0x15 s)
    (session : s.editor.session = .cue n follow actions) (bad : cueCommitCheck n actions s.working = some st) :
    Answers (.editCommit h) h 0x15 s { s.taken with editor := { s.editor with idleFrom := s.now } } st [] := by
  refine answers_commit takes ?_
  rw [← kept_taken]
  exact editCommitOp_cue_refused (by rwa [taken_editor]) (by rwa [taken_working])

/-- A curve commit that a check refuses (R44, R45). -/
theorem answers_curve_refused {h : Hdr} {st : Status} {id : Nat} {places : List (Option Point)}
    (takes : TakesNew h 0x15 s) (session : s.editor.session = .curve id places)
    (bad : curveCommitCheck id (allSome places) s.taken = some st) :
    Answers (.editCommit h) h 0x15 s { s.taken with editor := { s.editor with idleFrom := s.now } } st [] := by
  refine answers_commit takes ?_
  rw [← kept_taken]
  exact editCommitOp_curve_refused (by rwa [taken_editor]) bad

end Commit

/-- Settles O22: the checks of R42 in their order, and the list with the buffer put in at its number. -/
theorem cueCommits : Obligations.CueCommits := by
  intro h s n follow actions takes session law
  obtain ⟨count, used, order, each⟩ := law
  have size : weightAt (·.actions.length) n s.working.cues ≤ s.working.actionsUsed := weightAt_le order
  have free : s.working.freeActions = 384 - s.working.actionsUsed := rfl
  intro old kept
  have size' : old = weightAt (·.actions.length) n s.working.cues := rfl
  have check := cueCommitCheck_eq n actions s.working
  have defined (h : ∀ a ∈ actions, s.working.curve a.curve ≠ none) :
      ¬ (actions.any fun a => (s.working.curve a.curve).isNone) = true := by simpa using h
  refine ⟨fun empty => ?_, fun some undefined => ?_, fun some curves full => ?_, fun some curves room place => ?_⟩
  · exact answers_cue_refused takes session (check.trans (if_pos empty))
  · refine answers_cue_refused takes session ?_
    rw [check, if_neg some, if_pos (by simpa using undefined)]
  · refine answers_cue_refused takes session ?_
    rw [check, if_neg some, if_neg (defined curves)]
    rcases full with full | ⟨fresh, full⟩
    · exact if_pos (by omega)
    · split
      · rfl
      · exact if_pos ⟨by rw [fresh]; rfl, by omega⟩
  · have good : cueCommitCheck n actions s.working = none := by
      rw [check, if_neg some, if_neg (defined curves), if_neg (by omega)]
      refine if_neg ?_
      rintro ⟨fresh, full⟩
      rcases place with old | room
      · exact old (Option.isNone_iff_eq_none.mp fresh)
      · omega
    have weight : ((insertCue ⟨n, follow, actions⟩ s.working.cues).map (·.actions.length)).sum
        + weightAt (·.actions.length) n s.working.cues = s.working.actionsUsed + actions.length :=
      insertCue_weight (·.actions.length) (q := ⟨n, follow, actions⟩) order
    refine ⟨insertCue ⟨n, follow, actions⟩ s.working.cues, answers_commit takes ?_, insertCue_order order,
      fun q => mem_insertCue order⟩
    rw [editCommitOp_cue (by rwa [taken_editor]) (by rwa [taken_working]), taken_working, commitDone_taken]
    have left : Show.freeActions { s.working with cues := insertCue ⟨n, follow, actions⟩ s.working.cues }
        = 384 - (s.working.actionsUsed - old + actions.length) := by
      change 384 - ((insertCue ⟨n, follow, actions⟩ s.working.cues).map (·.actions.length)).sum = _
      omega
    rw [commitData, left]
    rfl

/-- Settles O23: the checks of R44 in their order, and the curve put into its place of the table. -/
theorem curveCommits : Obligations.CurveCommits := by
  constructor
  · intro h s k points takes session law
    obtain ⟨used, _⟩ := law
    have size : pointCount (Table.at s.working.curves k) ≤ s.working.pointsUsed := pointCount_le
    have free : s.working.freePoints = 240 - s.working.pointsUsed := rfl
    intro old kept busyCurve
    have size' : old = pointCount (Table.at s.working.curves k) := rfl
    have check := curveCommitCheck_some k points s.taken
    rw [← allSome_map points, taken_fade, taken_player, taken_working] at check
    refine ⟨fun bad => ?_, fun shape busy => ?_, fun shape idle full => ?_, fun shape idle room => ?_⟩
    · refine answers_curve_refused takes session (check.trans ?_)
      rw [bad]
      rfl
    · refine answers_curve_refused takes session (check.trans ?_)
      rw [shape, if_neg (by decide), if_pos (by simpa [busyCurve] using busy)]
    · refine answers_curve_refused takes session (check.trans ?_)
      rw [shape, if_neg (by decide), if_neg (by simpa [busyCurve] using idle), if_pos (by omega)]
    · have good : curveCommitCheck (k.val + 1) (allSome (points.map some)) s.taken = none := by
        rw [check, shape, if_neg (by decide), if_neg (by simpa [busyCurve] using idle), if_neg (by omega)]
      refine answers_commit takes ?_
      have open_ : s.taken.editor.session = .curve (k.val + 1) (points.map some) := by
        rw [taken_editor, session]
      have count : pointCount (some points) = points.length := rfl
      have left : Show.freePoints { s.working with curves := Table.put s.working.curves k (some points) }
          = 240 - (s.working.pointsUsed - old + points.length) :=
        (Show.freePoints_put s.working k (some points)).trans (by rw [size', count])
      rw [editCommitOp_curve open_ good, allSome_map, Show.setCurve_eq, commitDone_taken, taken_working, commitData, left]
      rfl
  · intro h s takes
    refine ⟨fun idle => answers_commit takes (editCommitOp_idle (by rwa [taken_editor])), fun id places session empty => ?_⟩
    refine answers_curve_refused takes session ?_
    rw [allSome_eq_none.mpr empty]
    rfl

/-! ## DELETE_CUE and DROP_CURVE -/

theorem FadeEngine.usesCurve_iff {id : Nat} {s : State} :
    s.fade.usesCurve id = true ↔ ∃ c : Chan, ∃ f, (s.chan c).fade = some f ∧ f.curve = id := by
  rw [FadeEngine.usesCurve, List.any_eq_true]
  constructor
  · rintro ⟨r, listed, uses⟩
    obtain ⟨c, rfl⟩ := Table.mem_entries.mp listed
    split at uses
    · next f hf => exact ⟨c, f, hf, by simpa using uses⟩
    · cases uses
  · rintro ⟨c, f, hf, rfl⟩
    have listed : s.chan c ∈ s.fade.chans.entries := Table.mem_entries.mpr ⟨c, rfl⟩
    exact ⟨s.chan c, listed, by rw [hf]; exact beq_self_eq_true _⟩

theorem Player.usesCurve_iff {id : Nat} {p : Player} : p.usesCurve id = true ↔ ∃ e ∈ p.sched, e.curve = id := by
  simp [Player.usesCurve]

theorem Show.cuesUseCurve_iff {id : Nat} {w : Show} :
    w.cuesUseCurve id = true ↔ ∃ q ∈ w.cues, ∃ a ∈ q.actions, a.curve = id := by simp [Show.cuesUseCurve]

section Delete

variable {cue : Half} {id : Byte} {s : State}

theorem deleteCueOp_bad (bad : cue.toNat < 1 ∨ 9999 < cue.toNat) : deleteCueOp cue s = refuse .badValue s := if_pos bad

theorem deleteCueOp_not_found (lo : 1 ≤ cue.toNat) (hi : cue.toNat ≤ 9999)
    (absent : s.working.findCue cue.toNat = none) : deleteCueOp cue s = refuse .notFound s := by
  unfold deleteCueOp
  rw [if_neg (by omega), absent]
  rfl

theorem deleteCueOp_found {q : Cue} (lo : 1 ≤ cue.toNat) (hi : cue.toNat ≤ 9999)
    (found : s.working.findCue cue.toNat = some q) :
    deleteCueOp cue s =
      (s.setWorking { s.working with cues := s.working.cues.filter fun q => q.number != cue.toNat }, ⟨.done,
        byte1 (s.working.cues.filter fun q => q.number != cue.toNat).length
          ++ byte2 (Show.freeActions { s.working with cues := s.working.cues.filter fun q => q.number != cue.toNat })⟩) := by
  unfold deleteCueOp
  rw [if_neg (by omega), found]
  rfl

theorem dropCurveOp_bad (bad : id.toNat < 1 ∨ 15 < id.toNat) : dropCurveOp id s = refuse .badValue s :=
  if_pos (by omega)

theorem dropCurveOp_defined (k : Fin 15) (number : id.toNat = k.val + 1) :
    dropCurveOp id s =
      if (Table.at s.working.curves k).isNone then refuse .notFound s
      else if s.fade.usesCurve id.toNat ∨ s.player.usesCurve id.toNat ∨ s.working.cuesUseCurve id.toNat then
        refuse .inUse s
      else (s.setWorking { s.working with curves := Table.put s.working.curves k none },
        ⟨.done, byte1 (Show.freePoints { s.working with curves := Table.put s.working.curves k none })⟩) := by
  have := k.isLt
  unfold dropCurveOp
  dsimp only
  rw [if_neg (by omega), number, Show.curve_user, Show.setCurve_eq]

end Delete

/-- Settles O24: the checks of both messages in their order, and the pools after what they remove. -/
theorem deletesFreeThePools : Obligations.DeletesFreeThePools := by
  refine ⟨fun h cue s takes => ?_, fun h id s takes => ?_⟩
  · have answers {t : State} {st : Status} {data : List Byte} (run : deleteCueOp cue s.taken = (t, ⟨st, data⟩)) :
        Answers (.deleteCue h cue) h 0x17 s t st data := answers_new h (.deleteCue cue) s t st data takes rfl run
    refine ⟨fun bad => answers (deleteCueOp_bad bad), fun lo hi absent => ?_, fun q listed number law => ?_⟩
    · exact answers (deleteCueOp_not_found lo hi (findCue_eq_none.mpr (by rwa [taken_working])))
    · obtain ⟨_, _, order, each⟩ := law
      obtain ⟨lo, hi, _⟩ := each q listed
      have found := number ▸ findCue_of_mem order listed
      have count := removeCue_weight (fun _ => 1) (n := cue.toNat) order
      have actions := removeCue_weight (·.actions.length) (n := cue.toNat) order
      rw [sum_map_one, sum_map_one, ← number, weightAt_of_mem order listed] at count
      rw [← number, weightAt_of_mem order listed] at actions
      have used : s.working.actionsUsed = (s.working.cues.map (·.actions.length)).sum := rfl
      refine ⟨s.working.cues.filter fun q => q.number != cue.toNat, answers ?_, fun x => by simp⟩
      rw [deleteCueOp_found (number ▸ lo) (number ▸ hi) (by rwa [taken_working]), taken_working]
      have length : (s.working.cues.filter fun q => q.number != cue.toNat).length = s.working.cues.length - 1 := by
        rw [← number]
        omega
      have left : Show.freeActions { s.working with cues := s.working.cues.filter fun q => q.number != cue.toNat }
          = 384 - (s.working.actionsUsed - q.actions.length) := by
        change 384 - ((s.working.cues.filter fun q => q.number != cue.toNat).map (·.actions.length)).sum = _
        rw [← number]
        omega
      rw [length, left]
      rfl
  · have answers {t : State} {st : Status} {data : List Byte} (run : dropCurveOp id s.taken = (t, ⟨st, data⟩)) :
        Answers (.dropCurve h id) h 0x18 s t st data := answers_new h (.dropCurve id) s t st data takes rfl run
    refine ⟨fun bad => answers (dropCurveOp_bad bad), fun k number => ?_⟩
    have run := dropCurveOp_defined (s := s.taken) k number
    rw [taken_working, taken_fade, taken_player] at run
    refine ⟨fun undefined => answers (run.trans ?_), fun points defined => ⟨fun busy => answers (run.trans ?_),
      fun fades entries cues law => answers (run.trans ?_)⟩⟩
    · rw [undefined]
      rfl
    · rw [defined, if_neg (by simp), if_pos]
      · rfl
      · rwa [FadeEngine.usesCurve_iff, Player.usesCurve_iff, Show.cuesUseCurve_iff]
    · have left : Show.freePoints { s.working with curves := Table.put s.working.curves k none }
          = 240 - (s.working.pointsUsed - points.length) :=
        (Show.freePoints_put s.working k none).trans (by rw [defined]; rfl)
      rw [defined, if_neg (by simp), if_neg, left]
      · rfl
      · rw [FadeEngine.usesCurve_iff, Player.usesCurve_iff, Show.cuesUseCurve_iff]
        rintro (⟨c, f, hf, same⟩ | ⟨e, he, same⟩ | ⟨q, hq, a, ha, same⟩)
        · exact fades c f hf same
        · exact entries e he same
        · exact cues q hq a ha same

end Sys2Proof.Machine
end

section
/-! SUPPORT. The node's own messages: IDENTIFY, READ_STATUS, CONFIGURE, the patch, the master and the blackout (sections 4.5,
4.6, 7.1 and 9.6 to 9.7). -/

namespace Sys2Proof.Machine

/-! ## IDENTIFY and READ_STATUS -/

theorem flag_le (b : Bool) : flag b ≤ 1 := by cases b <;> decide

theorem maskOf_input_lt (f : Input → Bool) : maskOf f < 16 := by
  have h0 := flag_le (f 0)
  have h1 := flag_le (f 1)
  have h2 := flag_le (f 2)
  have h3 := flag_le (f 3)
  have sum : maskOf f = flag (f 0) * 1 + (flag (f 1) * 2 + (flag (f 2) * 4 + (flag (f 3) * 8 + 0))) := rfl
  omega

theorem activeMask_toNat (s : State) : s.activeMask.toNat = maskOf s.active := by
  rw [State.activeMask, BitVec.toNat_ofNat]
  exact Nat.mod_eq_of_lt (maskOf_input_lt _)

theorem byte1_nodeAddr {addr : Byte} {s : State} (names : NamesNode addr s) : byte1 s.line.nodeAddr.toNat = [addr] := by
  obtain ⟨_, _, same⟩ := names
  rw [← same, byte1_toNat]

/-- Settles O13: both messages are answered in the state in which they are taken. -/
theorem nodeReadsAnswer : Obligations.NodeReadsAnswer := by
  refine fun h s => ⟨fun takes => ?_, fun takes => ?_⟩
  · obtain ⟨_, names, _⟩ := id takes
    refine answers_new h .identify s _ _ _ takes rfl ?_
    change identifyOp s.taken = _
    rw [identifyOp, taken_line, taken_working, byte1_nodeAddr names]
    rfl
  · refine answers_new h .readStatus s _ _ _ takes rfl ?_
    change readStatusOp s.taken = _
    rw [readStatusOp, activeMask_toNat, taken_line]
    simp only [taken_now, taken_player, taken_editor, taken_mem, taken_inputs, taken_comp]
    have active : s.taken.active = fun i : Input =>
        activeAt (Table.at s.working.params.polarity i) (Table.at s.inputs.level i) := by
      funext i
      rw [State.active, taken_working, taken_inputs]
    rw [active]

/-! ## CONFIGURE -/

/-- The state with other parameters and another line blackout flag. -/
def State.configured (p : Params) (black : Bool) (s : State) : State := { s with
  working := { s.working with params := p }
  comp := { s.comp with lineBlackout := black } }

theorem restartSilence_self {s : State} (fresh : s.line.silenceFrom = s.now) : restartSilence s = s := by
  rw [restartSilence, ← fresh]
  rfl

/-- A parameter is an input setting: a role or a polarity (R127, R180). -/
abbrev inputSetting (id : Nat) : Prop := 0x06 ≤ id ∧ id ≤ 0x0D

/-- One parameter of a CONFIGURE that has just restarted the silence timer (R127, R179, R181). -/
theorem applyParam_eq {s : State} (fresh : s.line.silenceFrom = s.now) (id v : Nat) :
    applyParam id v s = s.configured (s.working.params.set id v)
      (if inputSetting id then (s.configured (s.working.params.set id v) false).blackoutCondition
        else s.comp.lineBlackout) := by
  unfold applyParam
  dsimp only
  split
  · rfl
  · split
    · exact restartSilence_self fresh
    · rfl

theorem condition_set_other {id v : Nat} {s : State} {b : Bool} (other : ¬ inputSetting id) :
    (s.configured (s.working.params.set id v) b).blackoutCondition = s.blackoutCondition := by
  obtain ⟨role, polarity⟩ := Params.set_inputs (v := v) (p := s.working.params) other
  unfold State.blackoutCondition State.active State.configured
  simp only [role, polarity]

/-- The parameters of a CONFIGURE applied one after another. -/
def applyPairs (pairs : List RawPair) (s : State) : State :=
  pairs.foldl (fun s p => applyParam p.id.toNat p.value.toNat s) s

/-- What the pairs of a CONFIGURE leave, from a state in which the silence timer has just been restarted (R127, R179). -/
theorem applyPairs_spec (pairs : List RawPair) {s : State} (fresh : s.line.silenceFrom = s.now)
    (good : ∀ p ∈ pairs, paramOk p.id.toNat p.value.toNat = true) :
    ∃ params black, applyPairs pairs s = s.configured params black
      ∧ (∀ id, params.value id = ((pairs.reverse.find? fun p => p.id.toNat == id).map fun p => p.value.toNat).getD
          (s.working.params.value id))
      ∧ ((s.comp.lineBlackout = s.blackoutCondition ∨ ∃ p ∈ pairs, inputSetting p.id.toNat) →
          black = (s.configured params black).blackoutCondition)
      ∧ ((∀ p ∈ pairs, ¬ inputSetting p.id.toNat) → black = s.comp.lineBlackout) := by
  induction pairs generalizing s with
  | nil => exact ⟨s.working.params, s.comp.lineBlackout, rfl, fun _ => rfl, fun h => h.resolve_right (by simp), fun _ => rfl⟩
  | cons p rest ih =>
    have ok := good p List.mem_cons_self
    have first := applyParam_eq fresh p.id.toNat p.value.toNat
    obtain ⟨params, black, eq, values, handed, untouched⟩ := ih (s := applyParam p.id.toNat p.value.toNat s)
      (by rw [first]; exact fresh) fun q hq => good q (List.mem_cons_of_mem _ hq)
    refine ⟨params, black, ?_, fun id => ?_, fun h => ?_, fun none => ?_⟩
    · exact eq.trans (by rw [first]; rfl)
    · rw [values id, List.reverse_cons, List.find?_append]
      cases found : rest.reverse.find? fun p => p.id.toNat == id with
      | some q => rfl
      | none =>
        rw [first]
        change (s.working.params.set p.id.toNat p.value.toNat).value id = _
        by_cases same : p.id.toNat = id
        · subst same
          rw [Params.value_set ok, Option.none_or, List.find?_cons_of_pos (by simp)]
          rfl
        · rw [Params.value_set_ne (Ne.symm same), Option.none_or, List.find?_cons_of_neg (by simpa using same)]
          rfl
    · have := handed ?_
      · rw [this, first]
        rfl
      · rw [first]
        by_cases setting : inputSetting p.id.toNat
        · rw [if_pos setting]
          exact Or.inl rfl
        · rw [if_neg setting]
          rcases h with clean | ⟨q, hq, named⟩
          · exact Or.inl (clean.trans (condition_set_other setting).symm)
          · rcases List.mem_cons.mp hq with rfl | hq
            · exact absurd named setting
            · exact Or.inr ⟨q, hq, named⟩
    · rw [untouched fun q hq => none q (List.mem_cons_of_mem _ hq), first, if_neg (none p List.mem_cons_self)]
      rfl

theorem configureOp_good {pairs : List RawPair} {s : State}
    (good : ∀ p ∈ pairs, paramOk p.id.toNat p.value.toNat = true) :
    configureOp pairs s = (applyPairs pairs s, ⟨.done, byte1 pairs.length⟩) := by
  have first : firstBadPair pairs = none := by
    rw [firstBadPair, List.findIdx?_eq_none_iff.mpr fun p hp => by rw [good p hp]; rfl]
    rfl
  unfold configureOp
  rw [first]
  rfl

theorem configureOp_bad {pairs : List RawPair} {s : State} {k : Nat} {p : RawPair} (hp : pairs[k]? = some p)
    (bad : paramOk p.id.toNat p.value.toNat = false)
    (before : ∀ q ∈ pairs.take k, paramOk q.id.toNat q.value.toNat = true) :
    configureOp pairs s = (s, ⟨.badValue, byte1 (k + 1)⟩) := by
  obtain ⟨inside, rfl⟩ := List.getElem?_eq_some_iff.mp hp
  have first : firstBadPair pairs = some (k + 1) := by
    rw [firstBadPair, List.findIdx?_eq_some_iff_getElem.mpr ⟨inside, by rw [bad]; rfl, fun j less => ?_⟩]
    · rfl
    · rw [before _ (List.mem_take_iff_getElem.mpr ⟨j, by omega, rfl⟩)]
      decide
  unfold configureOp
  rw [first]

theorem taken_silenceFrom (s : State) : s.taken.line.silenceFrom = s.taken.now := by rw [taken_line, taken_now]

/-- Settles O14: with every pair good the parameters are set one after another, the later of a parameter winning; the first
bad pair refuses them all. -/
theorem configureAppliesAllOrNone : Obligations.ConfigureAppliesAllOrNone := by
  intro h pairs s takes lo hi
  have answers {t : State} {st : Status} {data : List Byte} (run : configureOp pairs s.taken = (t, ⟨st, data⟩)) :
      Answers (.configure h pairs) h 0x03 s t st data :=
    answers_new h (.configure pairs) s t st data takes (lineCheck_ok _ (decide_eq_true ⟨lo, hi⟩) rfl) run
  refine ⟨fun good => ?_, fun k p hp bad before => answers (configureOp_bad hp bad before)⟩
  obtain ⟨params, black, eq, values, handed, untouched⟩ := applyPairs_spec pairs (taken_silenceFrom s) good
  rw [taken_working] at values
  rw [taken_comp] at untouched
  refine ⟨s.taken.configured params black, answers ?_, values, fun named => handed (Or.inr named), fun others => ?_, ?_⟩
  · rw [configureOp_good good, eq]
  · exact untouched fun p hp => by have := others p hp; omega
  · unfold State.configured
    rw [taken_working, taken_comp]

/-! ## The patch -/

theorem sourceOf_eq_some {n : Nat} {c : Option Chan} : sourceOf n = some c ↔ n = sourceNumber c := by
  unfold sourceOf
  split
  · next zero =>
    subst zero
    cases c with
    | none => simp [sourceNumber]
    | some c => simp [sourceNumber, chanNumber]
  · next other =>
    cases c with
    | none => simp [sourceNumber, other]
    | some c => simp [sourceNumber, chanOf_eq_some]

theorem lawOf_eq_some {n : Nat} {l : Law} : lawOf n = some l ↔ n = l.code := by
  constructor
  · intro h
    unfold lawOf at h
    split at h
    all_goals first | (obtain rfl := Option.some.inj h; rfl) | cases h
  · rintro rfl
    cases l <;> rfl

theorem outputOf_bytes {r : RawOutput} {o : Output} (h : outputOf r = some o) : o.bytes = outputRecordBytes r := by
  unfold outputOf at h
  split at h
  · next source law hs hl =>
    obtain ⟨_, eq⟩ := Option.ite_none_right_eq_some.mp h
    obtain rfl := Option.some.inj eq
    rw [Output.bytes, ← sourceOf_eq_some.mp hs, ← lawOf_eq_some.mp hl, byte1_toNat, byte1_toNat]
    rfl
  · cases h

theorem sourceOf_isSome {n : Nat} : (sourceOf n).isSome ↔ n ≤ 24 := by
  unfold sourceOf
  split
  · next zero => simp [zero]
  · rw [Option.isSome_map, chanOf_isSome]
    omega

theorem lawOf_isSome {n : Nat} : (lawOf n).isSome ↔ n ≤ 2 := by
  rcases n with _ | _ | _ | n
  · simp [lawOf]
  · simp [lawOf]
  · simp [lawOf]
  · simp [lawOf]

theorem outputOf_isSome {r : RawOutput} : (outputOf r).isSome ↔
    r.source.toNat ≤ 24 ∧ r.law.toNat ≤ 2 ∧ r.threshold.toNat ≤ 4095 ∧ r.min.toNat ≤ 4095 := by
  rw [← sourceOf_isSome, ← lawOf_isSome]
  unfold outputOf
  cases sourceOf r.source.toNat <;> cases lawOf r.law.toNat <;> simp

/-- The patch with these records from output `first` upward (R131). -/
def patchWith (first : Nat) (outs : List Output) (patch : Table Output 40) : Table Output 40 :=
  tabulate fun o => if first - 1 ≤ o.val then (outs[o.val - (first - 1)]?).getD (Table.at patch o) else Table.at patch o

section Patch

variable {first count : Byte} {records : List RawOutput} {s : State}

theorem patchOp_range (bad : first.toNat < 1 ∨ 41 < first.toNat + records.length) (one : 1 ≤ records.length) :
    patchOp first records s = refuse .badValue s := if_pos (by omega)

theorem patchOp_bad (unread : allSome (records.map outputOf) = none) :
    patchOp first records s = refuse .badValue s := by
  unfold patchOp
  rw [unread]
  exact ite_self _

theorem patchOp_read {outs : List Output} (lo : 1 ≤ first.toNat) (hi : first.toNat + records.length ≤ 41)
    (one : 1 ≤ records.length) (read : allSome (records.map outputOf) = some outs) :
    patchOp first records s = (s.setWorking { s.working with patch := patchWith first.toNat outs s.working.patch },
      ⟨.done, byte1 first.toNat ++ byte1 records.length⟩) := by
  unfold patchOp
  dsimp only
  rw [if_neg (by omega), read]
  rfl

theorem readPatchOp_bad
    (bad : first.toNat < 1 ∨ count.toNat < 1 ∨ 6 < count.toNat ∨ 41 < first.toNat + count.toNat) :
    readPatchOp first count s = refuse .badValue s := if_pos (by omega)

theorem readPatchOp_good (lo : 1 ≤ first.toNat) (one : 1 ≤ count.toNat) (six : count.toNat ≤ 6)
    (hi : first.toNat + count.toNat ≤ 41) :
    readPatchOp first count s = (s, ⟨.done, byte1 s.working.params.chainSlots
      ++ byte1 (flags2 s.chain.shifting (s.chain.withRole .ready).isSome) ++ byte2 s.chain.skips
      ++ byte1 first.toNat ++ byte1 count.toNat
      ++ (page count.toNat (first.toNat - 1) (List.finRange 40)).flatMap (patchEntry s)⟩) := if_neg (by omega)

end Patch

/-- Settles O16: the records sent, each in its place of the patch, or none. -/
theorem patchReplacesRecords : Obligations.PatchReplacesRecords := by
  constructor
  · intro h first records s takes one eight
    have answers {t : State} {st : Status} {data : List Byte} (run : patchOp first records s.taken = (t, ⟨st, data⟩)) :
        Answers (.patch h first records) h 0x05 s t st data :=
      answers_new h (.patch first records) s t st data takes (lineCheck_ok _ (decide_eq_true ⟨one, eight⟩) rfl) run
    refine ⟨fun lo hi good => ?_, fun bad => answers ?_⟩
    · cases read : allSome (records.map outputOf) with
      | none =>
        obtain ⟨r, sent, bad⟩ := List.mem_map.mp (allSome_eq_none.mp read)
        have := outputOf_isSome.mpr (good r sent)
        rw [bad] at this
        cases this
      | some outs =>
        have listed := allSome_eq_some read
        have length : records.length = outs.length := by simpa using congrArg List.length listed
        refine ⟨patchWith first.toNat outs s.working.patch, answers ?_, fun o k r place sent => ?_, fun o outside => ?_⟩
        · rw [patchOp_read lo hi one read, byte1_toNat, taken_working]
          rfl
        · have at_k : outs[k]?.map some = (records[k]?).map outputOf := by
            rw [← List.getElem?_map, ← List.getElem?_map, listed]
          rw [sent] at at_k
          obtain ⟨out, found, eq⟩ := Option.map_eq_some_iff.mp at_k
          rw [patchWith, at_tabulate, if_pos (by omega), show o.val - (first.toNat - 1) = k by omega, found]
          exact outputOf_bytes eq.symm
        · rw [patchWith, at_tabulate]
          rcases outside with before | after
          · exact if_neg (by omega)
          · rw [if_pos (by omega), List.getElem?_eq_none (by omega)]
            rfl
    · by_cases range : first.toNat < 1 ∨ 41 < first.toNat + records.length
      · exact patchOp_range range one
      · rw [← or_assoc] at bad
        obtain ⟨r, sent, bad⟩ := bad.resolve_left range
        have unread : outputOf r = none := Option.not_isSome_iff_eq_none.mp fun good => by
          have := outputOf_isSome.mp good
          omega
        exact patchOp_bad (allSome_eq_none.mpr (List.mem_map.mpr ⟨r, sent, unread⟩))
  · intro h first count s takes
    have answers {t : State} {st : Status} {data : List Byte} (run : readPatchOp first count s.taken = (t, ⟨st, data⟩)) :
        Answers (.readPatch h first count) h 0x06 s t st data :=
      answers_new h (.readPatch first count) s t st data takes rfl run
    refine ⟨fun lo one six hi => answers ?_, fun bad => answers (readPatchOp_bad bad)⟩
    rw [readPatchOp_good lo one six hi]
    have entry : patchEntry s.taken = fun o => (Table.at s.working.patch o).bytes ++ byte2 (Table.at s.comp.composed o) := by
      funext o
      rw [patchEntry, taken_working, taken_comp]
    rw [taken_working, taken_chain, entry, byte1_toNat, byte1_toNat]
    rw [List.append_assoc _ [first] [count]]
    rfl

/-! ## The master and the blackout -/

section Master

variable {level time : Half} {state : Byte} {s : State}

theorem setMasterOp_bad (bad : 1000 < level.toNat ∨ 60000 < time.toNat) :
    setMasterOp level time s = refuse .badValue s := by
  unfold setMasterOp masterRequest
  rw [if_pos bad]
  rfl

theorem setMasterOp_at_once (range : level.toNat ≤ 1000) (zero : time = 0) : setMasterOp level time s
    = (s.setFade { s.fade with master := level.toNat, masterCtx := none },
        ⟨.done, byte2 level.toNat ++ byte2 level.toNat⟩) := by
  subst zero
  unfold setMasterOp masterRequest
  rw [if_neg (by simp; omega)]
  rfl

theorem setMasterOp_fade (range : level.toNat ≤ 1000) (timed : time ≠ 0) (limit : time.toNat ≤ 60000) :
    setMasterOp level time s
      = (s.setFade { s.fade with masterCtx := some ⟨s.fade.master, level.toNat, time.toNat, 0, s.now⟩ },
          ⟨.done, byte2 s.fade.master ++ byte2 level.toNat⟩) := by
  have positive : time.toNat ≠ 0 := fun zero => timed (BitVec.eq_of_toNat_eq zero)
  unfold setMasterOp masterRequest
  rw [if_neg (by omega), if_neg positive]
  rfl

theorem setBlackoutOp_bad (bad : 1 < state.toNat) : setBlackoutOp state s = refuse .badValue s := if_pos bad

theorem setBlackoutOp_good (on : Bool) : setBlackoutOp (if on then 1 else 0) s
    = (s.setComp { s.comp with hostBlackout := on },
        ⟨.done, [if on then 1 else 0, if s.comp.lineBlackout then 1 else 0]⟩) := by
  cases on <;> cases black : s.comp.lineBlackout
  all_goals
    unfold setBlackoutOp
    simp [State.setComp, black]
    rfl

end Master

/-- Settles O35: the two messages write the master or the host flag alone. -/
theorem masterAndBlackout : Obligations.MasterAndBlackout := by
  refine fun h s => ⟨fun level time takes => ?_, fun state takes => ?_⟩
  · have answers {t : State} {st : Status} {data : List Byte} (run : setMasterOp level time s.taken = (t, ⟨st, data⟩)) :
        Answers (.setMaster h level time) h 0x33 s t st data :=
      answers_new h (.setMaster level time) s t st data takes rfl run
    refine ⟨fun bad => answers (setMasterOp_bad bad), fun range zero => answers ?_, fun range timed limit => answers ?_⟩
    · rw [setMasterOp_at_once range zero, taken_fade]
      rfl
    · rw [setMasterOp_fade range timed limit, taken_fade, taken_now]
      rfl
  · have answers {t : State} {st : Status} {data : List Byte} (run : setBlackoutOp state s.taken = (t, ⟨st, data⟩)) :
        Answers (.setBlackout h state) h 0x34 s t st data :=
      answers_new h (.setBlackout state) s t st data takes rfl run
    refine ⟨fun bad => answers (setBlackoutOp_bad bad), fun on set => answers ?_⟩
    rw [set, setBlackoutOp_good, taken_comp]
    rfl

end Sys2Proof.Machine
end

section
/-! SUPPORT. The starts and resets of the part, and what they leave of a store in progress (sections 1.8, 9.8, 10.2 and
10.3). -/

namespace Sys2Proof.Machine

/-! ## What a stopped phase leaves -/

theorem readBytes_append (m : Memory) (a n k : Nat) :
    readBytes m a (n + k) = readBytes m a n ++ readBytes m (a + n) k := by
  simp only [readBytes, List.range_add, List.map_append, List.map_map]
  congr 1
  exact List.map_congr_left fun j _ => congrArg (readByte m) (by simp; omega)

@[simp] theorem length_readBytes (m : Memory) (a n : Nat) : (readBytes m a n).length = n := by simp [readBytes]

@[simp] theorem length_partialBytes (k a n : Nat) : (partialBytes k a n).length = n := by simp [partialBytes]

/-- PROGRAMMING stopped in one of its three writes (R195, R197). -/
theorem partlyProgrammed_spec (k : Nat) (staging m : Memory) (w : m.wf = true) :
    PartlyProgrammed staging m (partlyProgrammed k staging m) := by
  unfold PartlyProgrammed partlyProgrammed programWrites
  dsimp only
  generalize littleEndian (readBytes staging 8 2) = length
  have imaged : Memory.wf (writeBytes m 10 (readBytes staging 10 length)) = true := writeBytes_wf m 10 _ w
  have image : readBytes (writeBytes m 10 (readBytes staging 10 length)) 10 length = readBytes staging 10 length := by
    have := readBytes_writeBytes m 10 (readBytes staging 10 length) w
    rwa [length_readBytes] at this
  have reached : Config.stoppedWrite k % 3 = 0 ∨ Config.stoppedWrite k % 3 = 1 ∨ Config.stoppedWrite k % 3 = 2 := by omega
  rcases reached with inImage | inCrc | inHeader
  · rw [inImage, writesStopped]
    refine ⟨fun a outside => readByte_writeBytes_ne _ _ _ _ (by simp; omega), Or.inl fun a outside => ?_⟩
    exact readByte_writeBytes_ne _ _ _ _ (by simp; omega)
  · rw [inCrc, writesStopped, writesStopped]
    refine ⟨fun a outside => ?_, Or.inr (Or.inl ⟨?_, fun a below => ?_⟩)⟩
    · rw [readByte_writeBytes_ne _ _ _ _ (by simp; omega), readByte_writeBytes_ne _ _ _ _ (by simp; omega)]
    · refine (readBytes_congr fun b _ less => ?_).trans image
      exact readByte_writeBytes_ne _ _ _ _ (Or.inl less)
    · rw [readByte_writeBytes_ne _ _ _ _ (by omega), readByte_writeBytes_ne _ _ _ _ (by omega)]
  · rw [inHeader, writesStopped, writesStopped, writesStopped]
    refine ⟨fun a outside => ?_, Or.inr (Or.inr ?_)⟩
    · rw [readByte_writeBytes_ne _ _ _ _ (by simp; omega), readByte_writeBytes_ne _ _ _ _ (by simp; omega),
        readByte_writeBytes_ne _ _ _ _ (by simp; omega)]
    · have crc := readBytes_writeBytes (writeBytes m 10 (readBytes staging 10 length)) (10 + length)
        (readBytes staging (10 + length) 4) imaged
      rw [length_readBytes] at crc
      have behind : ∀ a, 10 ≤ a → readByte (writeBytes (writeBytes (writeBytes m 10 (readBytes staging 10 length))
          (10 + length) (readBytes staging (10 + length) 4)) 4 (partialBytes k 4 (readBytes staging 4 6).length)) a
          = readByte (writeBytes (writeBytes m 10 (readBytes staging 10 length)) (10 + length)
              (readBytes staging (10 + length) 4)) a :=
        fun a above => readByte_writeBytes_ne _ _ _ _ (by simp; omega)
      rw [readBytes_congr fun a above _ => behind a above, readBytes_append, readBytes_append, crc]
      refine congrArg (· ++ _) ((readBytes_congr fun b _ less => ?_).trans image)
      exact readByte_writeBytes_ne _ _ _ _ (Or.inl less)

theorem checkBank_spoiled {m : Memory} (h : m.Spoiled) : checkBank m = none := if_pos h

theorem stopped_programming {r : Store} {s : State} (h : MemoryLaw s.mem) (phase : r.phase = .programming) :
    PartlyProgrammed s.mem.staging (s.bank r.target) (s.stopped r) := by
  unfold State.stopped
  rw [phase]
  exact partlyProgrammed_spec s.free s.mem.staging (s.bank r.target) (h.1 r.target)

theorem stopped_verifying {r : Store} {s : State} (phase : r.phase = .verifying) : s.stopped r = s.bank r.target := by
  unfold State.stopped
  rw [phase]

theorem otherBank_ne (b : Bank) : b ≠ otherBank b := by revert b; decide

/-! ## Starts -/

section Starts

variable {s : State} {reason : Reason} {phase : Phase}

theorem coldStart_of_none (none : s.mem.store = none) :
    coldStart reason phase s = State.cold reason phase s.pins s.mem.banks s.pending s.free := by
  unfold coldStart abandonStore
  rw [none]

theorem coldStart_of_store {r : Store} (storing : s.mem.store = some r) : ∃ free, coldStart reason phase s
    = State.cold reason phase s.pins (Table.put s.mem.banks r.target (s.stopped r)) s.pending free := by
  obtain ⟨free, stop⟩ := stopPhase_eq r s
  refine ⟨free, ?_⟩
  unfold coldStart abandonStore
  rw [storing]
  dsimp only
  rw [stop]
  rfl

end Starts

theorem exec_rstPinLow (addr : BitVec 6) (rate : BitVec 2) (s : State) :
    exec (.rstPinLow addr rate) s = .next (pullReset addr rate s) := rfl

theorem pullReset_powered {addr : BitVec 6} {rate : BitVec 2} {s : State} (powered : s.phase ≠ .off) :
    pullReset addr rate s = coldStart .pin .held
      (s.setPins { s.pins with rstLow := true, strapAddr := addr, strapRate := rate }) := if_neg powered

theorem pullReset_off {addr : BitVec 6} {rate : BitVec 2} {s : State} (off : s.phase = .off) :
    pullReset addr rate s = s.setPins { s.pins with rstLow := true, strapAddr := addr, strapRate := rate } := if_pos off

/-- Settles O9: a start without a store in progress is the cold state, whose fields are its reset values. -/
theorem startsResetEveryBlock : Obligations.StartsResetEveryBlock := by
  refine ⟨fun addr rate s none => ⟨?_, fun powered => ?_, ?_⟩, fun reason phase pins banks pending free t cold => ?_,
    fun addr rate s => ⟨fun held => ?_, fun free => ?_, fun off => ?_⟩⟩
  · exact congrArg Host.Outcome.next (coldStart_of_none (s := setStraps addr rate s) none)
  · rw [exec_rstPinLow, pullReset_powered powered]
    exact congrArg Host.Outcome.next (coldStart_of_none (s := s.setPins _) none)
  · exact congrArg Host.Outcome.next (coldStart_of_none none)
  · subst cold
    have flags (k : Fin 8) : Table.at (Vector.replicate 8 false) k = false := Table.at_replicate _ k
    refine ⟨rfl, fun c => ?_, rfl, rfl, rfl, rfl, rfl, rfl, flags, rfl, fun i => ?_, fun k => ?_, rfl, fun o => ?_,
      fun k => ⟨?_, ?_⟩, fun b => ?_, rfl, rfl, rfl, rfl, rfl, rfl, rfl, rfl, rfl, rfl, rfl, rfl, rfl, rfl, rfl, rfl⟩
    · exact Table.at_replicate Channel.reset c
    · exact Table.at_replicate none i
    · exact Table.at_replicate none k
    · exact Table.at_replicate 0 o
    · exact Table.at_replicate 0 k
    · exact Table.at_replicate none k
    · exact congrArg Buffer.role (Table.at_replicate Buffer.empty b)
  · exact congrArg Host.Outcome.next (if_pos held)
  · exact congrArg Host.Outcome.next (if_neg free)
  · rw [exec_rstPinLow, pullReset_off off]
    rfl

/-! ## The load at a start -/

theorem startShow_found {recs : Table (Option Nat) 2} {images : Table (Option (Nat × Show)) 2} {b : Bank} {g g' : Nat}
    {w : Show} (newest : newestBank recs = some (b, g)) (image : Table.at images b = some (g', w)) :
    startShow recs images = w := by
  unfold startShow
  rw [newest]
  dsimp only
  rw [image]

theorem startShow_none {recs : Table (Option Nat) 2} {images : Table (Option (Nat × Show)) 2}
    (newest : newestBank recs = none) : startShow recs images = Show.default := by
  unfold startShow
  rw [newest]

/-- STARTUP is always taken by an empty queue (R153, R162). -/
theorem offer_startup {mask : BitVec 9} {now : Time} {reason : Reason} {bank : Option Bank} {g : Nat} :
    ReportUnit.offer mask now (.startup reason bank g) ⟨[], 1, 0⟩
      = ⟨[⟨1, now, .startup reason bank g, false⟩], 2, 0⟩ := rfl

/-- Settles O10: the loaded show with the blocks set from it, and STARTUP as the one record. -/
theorem loadAtStartSetsTheShow : Obligations.LoadAtStartSetsTheShow := by
  intro s loading empty
  have run : exec .startUpLoad s = .next (loadAtStart s) := by
    change Host.Outcome.next (onlyIf (decide (s.phase = .loading)) loadAtStart s) = _
    rw [decide_eq_true loading]
    rfl
  have images (b : Bank) : Table.at s.checks b = checkBank (Table.at s.mem.banks b) := at_tabulate _ b
  have recs (b : Bank) : Table.at s.checkedRecs b = (checkBank (Table.at s.mem.banks b)).map Prod.fst := by
    rw [State.checkedRecs, at_tabulate, images]
  refine ⟨_, run, ?_⟩
  rw [loadAtStart_eq]
  unfold State.loaded
  generalize hw : startShow s.checkedRecs s.checks = w
  generalize hr : s.checkedRecs = rs at recs hw
  refine ⟨rfl, recs, fun b g w' newest check => ?_, fun newest => ?_, ?_, ?_, rfl, rfl, fun i => Table.at_replicate _ i, rfl,
    rfl, rfl, rfl, fun k => ⟨Table.at_replicate _ k, at_tabulate _ k⟩, rfl, rfl, rfl, rfl, rfl⟩
  · change newestBank rs = some (b, g) at newest
    have shown : w = w' := hw.symm.trans (startShow_found newest ((images b).trans check))
    rw [newest]
    refine ⟨shown, ?_⟩
    change (s.report.offer _ _ _).queue = _
    rw [empty, offer_startup]
    rfl
  · change newestBank rs = none at newest
    have shown : w = Show.default := hw.symm.trans (startShow_none newest)
    rw [newest]
    refine ⟨shown, ?_⟩
    change (s.report.offer _ _ _).queue = _
    rw [empty, offer_startup]
    rfl
  · change (s.report.offer _ _ _).nextSeq = _
    rw [empty, offer_startup]
  · change (s.report.offer _ _ _).lost = _
    rw [empty, offer_startup]

/-! ## RESET -/

section Reset

variable {mode : Byte} {s : State}

theorem resetOp_warm (idle : s.mem.store = none) :
    resetOp 0 s = (s.setLine { s.line with pendingReset := some .warm }, ⟨.done, []⟩) := by
  unfold resetOp
  rw [idle]
  rfl

theorem resetOp_cold : resetOp 1 s = (s.setLine { s.line with pendingReset := some .cold }, ⟨.done, []⟩) := rfl

theorem resetOp_busy (storing : s.mem.store ≠ none) : resetOp 0 s = refuse .busy s := by
  unfold resetOp
  rw [Option.isSome_iff_ne_none.mpr storing]
  rfl

theorem resetOp_bad (bad : 1 < mode.toNat) : resetOp mode s = refuse .badValue s := by
  unfold resetOp
  rw [if_neg (by omega), if_neg (by omega)]

end Reset

/-! ## The end of a reply -/

section ReplyEnd

variable {s : State} {frame : List Byte} {age : Nat}

theorem exec_replyEnd (running : s.phase = .running) : exec .replyEnd s = .next (endReply s) := by
  change Host.Outcome.next (onlyIf s.runs endReply s) = _
  rw [show s.runs = true from decide_eq_true running]
  rfl

/-- The part after the last stop bit of its reply (R164). -/
def State.replied (s : State) : State := s.setLine { s.line with reply := .idle, rx := .hunt }

theorem endReply_reset {m : ResetMode} (sending : s.line.reply = .sending frame age)
    (sent : frame.length * 10000000 ≤ age * rateOf s.line.lineRate) (resets : s.line.pendingReset = some m) :
    endReply s = takeReset m s.replied := by
  have allOut : allSent frame.length age (rateOf s.line.lineRate) = true := decide_eq_true sent
  unfold endReply
  rw [sending]
  dsimp only
  rw [allOut, if_pos rfl]
  change (match s.replied.line.pendingReset with | some m => takeReset m s.replied | none => s.replied) = _
  rw [show s.replied.line.pendingReset = some m from resets]

theorem endReply_done (sending : s.line.reply = .sending frame age)
    (sent : frame.length * 10000000 ≤ age * rateOf s.line.lineRate) (noReset : s.line.pendingReset = none) :
    endReply s = s.replied := by
  have allOut : allSent frame.length age (rateOf s.line.lineRate) = true := decide_eq_true sent
  unfold endReply
  rw [sending]
  dsimp only
  rw [allOut, if_pos rfl]
  change (match s.replied.line.pendingReset with | some m => takeReset m s.replied | none => s.replied) = _
  rw [show s.replied.line.pendingReset = none from noReset]

theorem endReply_early (sending : s.line.reply = .sending frame age)
    (early : age * rateOf s.line.lineRate < frame.length * 10000000) : endReply s = s := by
  have allOut : allSent frame.length age (rateOf s.line.lineRate) = false := decide_eq_false (by omega)
  unfold endReply
  rw [sending]
  dsimp only
  rw [allOut]
  rfl

end ReplyEnd

/-- The memory of a slot at a WARM reset: levels stand at 0, and nothing fades (R112, R116). -/
theorem warmed_memory (d : Option ArmDef) (s : State) :
    (d.bind fun d => (sampleInputs s.warmed).initialMemory d.condition)
      = match d.map (·.condition) with
        | some (.levelCross _ _ _) => some 0
        | _ => none := by
  have resetChan (c : Chan) : (sampleInputs s.warmed).chan c = Channel.reset := Table.at_replicate _ c
  cases d with
  | none => rfl
  | some d =>
    obtain ⟨_, condition, _⟩ := d
    cases condition with
    | levelCross c threshold direction => exact congrArg (fun r => some (Channel.level r)) (resetChan c)
    | fadeProgress c value => exact congrArg (fun r => (Channel.fade r).map _) (resetChan c)
    | inputEdge i edge => rfl
    | cueComplete n => rfl

/-- Settles O11: RESET leaves a pending reset, which takes effect at the end of a reply. -/
theorem resetTakesEffectAfterItsReply : Obligations.ResetTakesEffectAfterItsReply := by
  refine ⟨fun h mode s takes => ?_, fun s frame age running sending sent => ⟨fun warm => ?_, fun cold none => ?_⟩⟩
  · have answers {t : State} {st : Status} {data : List Byte} (run : resetOp mode s.taken = (t, ⟨st, data⟩)) :
        Answers (.reset h mode) h 0x0F s t st data := answers_new h (.reset mode) s t st data takes rfl run
    refine ⟨?_, ?_, ?_, fun bad => answers (resetOp_bad bad)⟩
    · rintro rfl idle
      exact answers (resetOp_warm (by rwa [taken_mem]))
    · rintro rfl
      exact answers resetOp_cold
    · rintro rfl storing
      exact answers (resetOp_busy (by rwa [taken_mem]))
  · rw [exec_replyEnd running, endReply_reset sending sent warm, takeReset, warmStart_eq]
    have resetChan (c : Chan) : s.replied.warmed.chan c = Channel.reset := Table.at_replicate _ c
    refine ⟨_, rfl, resetChan, rfl, rfl, rfl, rfl, rfl, rfl, rfl, fun i => Table.at_replicate _ i, rfl, fun b => ?_, rfl, rfl,
      rfl, rfl, fun k => ⟨Table.at_replicate _ k, ?_⟩, running, rfl, rfl, rfl, rfl⟩
    · exact congrArg Buffer.role (Table.at_replicate Buffer.empty b)
    · exact (at_tabulate _ k).trans (warmed_memory _ _)
  · rw [exec_replyEnd running, endReply_reset sending sent cold]
    exact congrArg Host.Outcome.next (coldStart_of_none (s := s.replied) none)

/-! ## A store that is cut off -/

/-- The part in which a start cuts off a store: the store and the free values are those before it. -/
theorem cutOff_spec {reason : Reason} {phase : Phase} {s u t : State} {r : Store} (sound : Sound s)
    (storing : s.mem.store = some r) (mem : u.mem = s.mem) (start : t = coldStart reason phase u) :
    t.mem.store = none ∧ t.mem.lastResult = none ∧ t.report.queue = []
      ∧ checkBank (Table.at t.mem.banks r.target) = none
      ∧ (r.phase = .programming →
          PartlyProgrammed s.mem.staging (Table.at s.mem.banks r.target) (Table.at t.mem.banks r.target))
      ∧ (r.phase = .verifying → Table.at t.mem.banks r.target = Table.at s.mem.banks r.target)
      ∧ Table.at t.mem.banks (otherBank r.target) = Table.at s.mem.banks (otherBank r.target) := by
  obtain ⟨free, cut⟩ := coldStart_of_store (reason := reason) (phase := phase) (s := u) (by rwa [mem])
  have banks : t.mem.banks = Table.put s.mem.banks r.target (u.stopped r) := by
    rw [start, cut, mem]
    rfl
  have bank : u.bank r.target = Table.at s.mem.banks r.target := by rw [State.bank, mem]
  have spoiled : (u.bank r.target).Spoiled := by
    rw [bank]
    exact (sound.store r storing).2
  rw [banks, Table.at_put_self, Table.at_put_ne _ _ (otherBank_ne _)]
  refine ⟨by rw [start, cut]; rfl, by rw [start, cut]; rfl, by rw [start, cut]; rfl,
    checkBank_spoiled (stopped_spoiled spoiled), fun phase => ?_, fun phase => ?_, rfl⟩
  · have stopped := stopped_programming (s := u) (r := r) (by rw [mem]; exact sound.memory) phase
    rwa [bank, mem] at stopped
  · rw [stopped_verifying phase, bank]

/-- Settles O12: each of the events is a start that abandons the store where it stands. -/
theorem cutOffStoreLeavesItsTargetInvalid : Obligations.CutOffStoreLeavesItsTargetInvalid := by
  intro c s t r addr rate sound storing event next
  rcases event with rfl | rfl | rfl | ⟨rfl, running, cold, frame, age, sending, sent⟩
  · exact cutOff_spec sound storing rfl (Host.Outcome.next.inj next).symm
  · have powered : s.phase ≠ .off := fun off => by
      obtain ⟨_, _, _, _, _, _, _, none⟩ := sound.atRest (by rw [off]; decide)
      cases storing.symm.trans none
    rw [exec_rstPinLow, pullReset_powered powered] at next
    refine cutOff_spec sound storing ?_ (Host.Outcome.next.inj next).symm
    rfl
  · exact cutOff_spec (u := setStraps addr rate s) sound storing rfl (Host.Outcome.next.inj next).symm
  · rw [exec_replyEnd running, endReply_reset sending sent cold] at next
    exact cutOff_spec (u := s.replied) sound storing rfl (Host.Outcome.next.inj next).symm

end Sys2Proof.Machine
end

section
/-! SUPPORT. Show memory: the acceptance of a store, its phases and their ends, and LOAD_SHOW (chapter 10). -/

namespace Sys2Proof.Machine

/-! ## STORE_SHOW and READ_MEMORY -/

/-- The memory after a store for this target and generation is accepted (R193). -/
def State.accepted (target : Bank) (g : Nat) (s : State) : ShowMemory := { s.mem with
  banks := Table.put s.mem.banks target
    (writeBytes (s.bank target) 0 (byte4 (nonMagic (Config.clearedMagic s.free)).toNat))
  recs := Table.put s.mem.recs target none
  store := some ⟨.erasing, target, g, s.now + 500⟩
  staging := writeBytes [] 0 (bankBytes g s.working.image) }

theorem acceptStore_eq (target : Bank) (g : Nat) (s : State) :
    acceptStore target g s = { s with mem := s.accepted target g, free := s.free + 1 } := by
  unfold acceptStore State.accepted
  dsimp only [State.tookFree, State.putBank, State.setMem]
  generalize writeBytes [] 0 _ = staged
  rfl

section StoreShow

variable {s : State}

theorem storeShowOp_busy (storing : s.mem.store ≠ none) : storeShowOp s = refuse .busy s := by
  unfold storeShowOp
  exact if_pos (Option.isSome_iff_ne_none.mpr storing)

theorem storeShowOp_full (idle : s.mem.store = none) (full : nextStore s.mem.recs = none) :
    storeShowOp s = refuse .noSpace s := by
  unfold storeShowOp
  rw [idle, full]
  rfl

theorem storeShowOp_next {b : Bank} {g : Nat} (idle : s.mem.store = none) (next : nextStore s.mem.recs = some (b, g)) :
    storeShowOp s = (acceptStore b g s, ⟨.accepted, byte1 b.val ++ byte4 g⟩) := by
  unfold storeShowOp
  rw [idle, next]
  rfl

end StoreShow

theorem nextStore_none {recs : Table (Option Nat) 2} {b : Bank} {g : Nat} (newest : newestBank recs = some (b, g))
    (full : 4294967295 ≤ g) : nextStore recs = none := by
  unfold nextStore
  rw [newest]
  exact if_pos full

/-- Of two banks, the one that is not this one is the other. -/
theorem eq_otherBank {b c : Bank} (ne : b ≠ c) : b = otherBank c := by revert b c; decide

theorem nextStore_some {recs : Table (Option Nat) 2} {target : Bank} {g : Nat}
    (h : (newestBank recs = none ∧ target = 0 ∧ g = 1)
      ∨ (∃ b n, newestBank recs = some (b, n) ∧ n < 4294967295 ∧ target ≠ b ∧ g = n + 1)) :
    nextStore recs = some (target, g) := by
  unfold nextStore
  rcases h with ⟨none, rfl, rfl⟩ | ⟨b, n, newest, room, ne, rfl⟩
  · rw [none]
  · rw [newest, eq_otherBank ne]
    exact if_neg (by omega)

theorem newestBank_code (recs : Table (Option Nat) 2) :
    byte1 (bankCode ((newestBank recs).map Prod.fst)) = [match Table.at recs 0, Table.at recs 1 with
      | none, none => 0xFF
      | some _, none => 0
      | none, some _ => 1
      | some g, some g' => if g' > g then 1 else 0] := by
  unfold newestBank
  cases Table.at recs 0 <;> cases Table.at recs 1
  · rfl
  · rfl
  · rfl
  · dsimp only
    split <;> rfl

/-- Settles O40: a store is accepted for the bank that is not the newest; READ_MEMORY answers the memory as it stands. -/
theorem storeShowIsAccepted : Obligations.StoreShowIsAccepted := by
  refine ⟨fun h s takes => ?_, fun h s takes => ?_⟩
  · have answers {t : State} {st : Status} {data : List Byte} (run : storeShowOp s.taken = (t, ⟨st, data⟩)) :
        Answers (.storeShow h) h 0x3D s t st data := answers_new h .storeShow s t st data takes rfl run
    refine ⟨fun storing => answers (storeShowOp_busy (by rwa [taken_mem])), fun idle b g newest full => ?_,
      fun target g idle next => ?_⟩
    · exact answers (storeShowOp_full (by rwa [taken_mem]) (by rw [taken_mem]; exact nextStore_none newest full))
    · have run := storeShowOp_next (s := s.taken) (by rwa [taken_mem]) (by rw [taken_mem]; exact nextStore_some next)
      rw [acceptStore_eq] at run
      have bank : s.taken.bank target = Table.at s.mem.banks target := by rw [State.bank, taken_mem]
      refine ⟨_, answers run, ?_⟩
      have image : bankBytes g s.taken.working.image = bankBytes g s.working.image := by rw [taken_working]
      unfold State.accepted
      rw [bank, taken_mem, taken_now, image, taken_free]
      generalize bankBytes g s.working.image = staged
      refine ⟨rfl, Table.at_put_self _ _ _, Table.at_put_ne _ _ (otherBank_ne target),
        ⟨_, nonMagic_ne _, Table.at_put_self _ _ _⟩, Table.at_put_ne _ _ (otherBank_ne target),
        readBytes_writeBytes [] 0 staged rfl, rfl⟩
  · intro record newest
    refine answers_new h .readMemory s _ _ _ takes rfl ?_
    change readMemoryOp s.taken = _
    have records (b : Bank) : recordBytes (Table.at s.mem.recs b) = record b := by
      unfold recordBytes record
      cases Table.at s.mem.recs b <;> rfl
    have storeItem : storeBytes s.mem.store = match s.mem.store with
        | some r => byte1 r.target.val ++ byte4 r.generation
        | none => [0xFF, 0, 0, 0, 0] := by
      unfold storeBytes
      cases s.mem.store <;> rfl
    have resultItem : resultBytes s.mem.lastResult = match s.mem.lastResult with
        | some r => byte1 (if r.ok then 1 else 2) ++ byte1 r.bank.val ++ byte4 r.generation
        | none => [0, 0xFF, 0, 0, 0, 0] := by
      unfold resultBytes
      cases s.mem.lastResult <;> rfl
    rw [readMemoryOp, taken_mem, records, records, newestBank_code, storeItem, resultItem] <;> rfl

/-! ## LOAD_SHOW -/

section LoadShow

variable {s : State}

theorem anyFade_iff : s.fade.anyFade = false ↔ ∀ c : Chan, (s.chan c).fade = none := by
  refine ⟨anyFade_false, fun quiet => List.any_eq_false.mpr fun r listed => ?_⟩
  obtain ⟨c, rfl⟩ := Table.mem_entries.mp listed
  rw [show (Table.at s.fade.chans c).fade = none from quiet c]
  decide

theorem loadable_iff : s.loadable = true ↔ s.player.state = .stopped ∧ s.player.sched = [] ∧ s.editor.session = .idle
    ∧ ∀ c : Chan, (s.chan c).fade = none := by
  rw [← anyFade_iff]
  refine ⟨loadable_true, ?_⟩
  rintro ⟨stopped, idle, session, quiet⟩
  rw [State.loadable, quiet, decide_eq_true ⟨stopped, idle, session⟩]
  rfl

theorem loadShowOp_busy (storing : s.mem.store ≠ none) : loadShowOp s = refuse .busy s := by
  unfold loadShowOp
  exact if_pos (Option.isSome_iff_ne_none.mpr storing)

theorem loadShowOp_not_ready (idle : s.mem.store = none) (busy : s.loadable = false) :
    loadShowOp s = refuse .wrongState s := by
  unfold loadShowOp
  rw [idle, busy]
  rfl

theorem loadShowOp_found {recs : Table (Option Nat) 2} {b : Bank} {g : Nat} {w : Show} (idle : s.mem.store = none)
    (ready : s.loadable = true) (found : findShow s = (recs, some (b, g, w))) :
    loadShowOp s = (takeShow w (s.setMem { s.mem with recs := recs }), ⟨.done, byte1 b.val ++ byte4 g⟩) := by
  unfold loadShowOp
  rw [idle, ready, found]
  rfl

theorem loadShowOp_not_found {recs : Table (Option Nat) 2} (idle : s.mem.store = none) (ready : s.loadable = true)
    (found : findShow s = (recs, none)) :
    loadShowOp s = (s.setMem { s.mem with recs := recs }, ⟨.notFound, []⟩) := by
  unfold loadShowOp
  rw [idle, ready, found]
  rfl

/-- Each owner takes its part of a show that is loaded just after the silence timer restarted (R201). -/
theorem takeShow_spec {u : State} (w : Show) (fresh : u.line.silenceFrom = u.now) :
    (takeShow w u).working = w
      ∧ (takeShow w u).comp = { u.comp with lineBlackout := (takeShow w u).blackoutCondition }
      ∧ (∀ k : Fin 8, Table.at (takeShow w u).arm.fired k = false
          ∧ Table.at (takeShow w u).arm.memory k
            = (Table.at w.arms k).bind fun d => (takeShow w u).initialMemory d.condition)
      ∧ takeShow w u = { u with
          working := w, comp := (takeShow w u).comp, arm := { (takeShow w u).arm with inbox := u.arm.inbox } } := by
  have restarted : restartSilence (handBlackout (u.setWorking w)) = handBlackout (u.setWorking w) :=
    restartSilence_self fresh
  unfold takeShow
  rw [restarted]
  exact ⟨rfl, rfl, fun k => ⟨Table.at_replicate _ k, at_tabulate _ k⟩, rfl⟩

theorem newestBank_rec {recs : Table (Option Nat) 2} {b : Bank} {n : Nat} (newest : newestBank recs = some (b, n)) :
    Table.at recs b = some n := by
  unfold newestBank at newest
  split at newest
  · cases newest
  · next first _ =>
    obtain ⟨rfl, rfl⟩ := Prod.mk.inj (Option.some.inj newest)
    exact first
  · next _ second =>
    obtain ⟨rfl, rfl⟩ := Prod.mk.inj (Option.some.inj newest)
    exact second
  · next first second =>
    split at newest
    · obtain ⟨rfl, rfl⟩ := Prod.mk.inj (Option.some.inj newest)
      exact second
    · obtain ⟨rfl, rfl⟩ := Prod.mk.inj (Option.some.inj newest)
      exact first

theorem newestBank_none {recs : Table (Option Nat) 2} (h : newestBank recs = none) (b : Bank) : Table.at recs b = none := by
  unfold newestBank at h
  split at h
  · next first second =>
    rcases (show b = 0 ∨ b = 1 by revert b; decide) with rfl | rfl
    · exact first
    · exact second
  · cases h
  · cases h
  · split at h <;> cases h

theorem findShow_newest {b : Bank} {n g : Nat} {w : Show} (newest : newestBank s.mem.recs = some (b, n))
    (passes : checkBank (s.bank b) = some (g, w)) : findShow s = (s.mem.recs, some (b, g, w)) := by
  unfold findShow
  rw [newest]
  dsimp only
  rw [passes]

theorem findShow_older {b : Bank} {n m g : Nat} {w : Show} (newest : newestBank s.mem.recs = some (b, n))
    (fails : checkBank (s.bank b) = none) (other : Table.at s.mem.recs (otherBank b) = some m)
    (passes : checkBank (s.bank (otherBank b)) = some (g, w)) :
    findShow s = (Table.put s.mem.recs b none, some (otherBank b, g, w)) := by
  unfold findShow
  rw [newest]
  dsimp only
  rw [fails]
  dsimp only
  rw [Table.at_put_ne _ _ (otherBank_ne b), other]
  dsimp only
  rw [passes]

/-- With no bank that is recorded as valid passing its check, no record stands (R201). -/
theorem findShow_none (fails : ∀ b n, Table.at s.mem.recs b = some n → checkBank (s.bank b) = none) :
    ∃ recs, findShow s = (recs, none) ∧ ∀ b : Bank, Table.at recs b = none := by
  unfold findShow
  cases newest : newestBank s.mem.recs with
  | none => exact ⟨s.mem.recs, rfl, newestBank_none newest⟩
  | some p =>
    obtain ⟨b, n⟩ := p
    have either (c : Bank) : c = b ∨ c = otherBank b := by
      by_cases e : c = b
      · exact Or.inl e
      · exact Or.inr (eq_otherBank e)
    dsimp only
    rw [fails b n (newestBank_rec newest)]
    dsimp only
    cases other : Table.at (Table.put s.mem.recs b none) (otherBank b) with
    | none =>
      refine ⟨_, rfl, fun c => ?_⟩
      rcases either c with rfl | rfl
      · exact Table.at_put_self _ _ _
      · exact other
    | some m =>
      rw [Table.at_put_ne _ _ (otherBank_ne b)] at other
      dsimp only
      rw [fails _ m other]
      refine ⟨_, rfl, fun c => ?_⟩
      rcases either c with rfl | rfl
      · rw [Table.at_put_ne _ _ (otherBank_ne c).symm]
        exact Table.at_put_self _ _ _
      · exact Table.at_put_self _ _ _

end LoadShow

/-- Settles O41: the refusals in their order, then the bank that is found, or none. -/
theorem loadShowReplacesTheShow : Obligations.LoadShowReplacesTheShow := by
  intro h s takes ready
  have answers {t : State} {st : Status} {data : List Byte} (run : loadShowOp s.taken = (t, ⟨st, data⟩)) :
      Answers (.loadShow h) h 0x3E s t st data := answers_new h .loadShow s t st data takes rfl run
  have loadable : s.taken.loadable = true ↔ ready := by
    rw [loadable_iff, taken_player, taken_editor]
    simp only [taken_chan]
    rfl
  have idle (free : s.mem.store = none) : s.taken.mem.store = none := by rwa [taken_mem]
  refine ⟨fun storing => answers (loadShowOp_busy (by rwa [taken_mem])), fun free notReady => ?_,
    fun free ok b n newest g w passes => ?_, fun free ok b n m newest fails other g w passes => ?_,
    fun free ok fails => ?_⟩
  · exact answers (loadShowOp_not_ready (idle free) (Bool.eq_false_iff.mpr fun r => notReady (loadable.mp r)))
  · have found : findShow s.taken = (s.taken.mem.recs, some (b, g, w)) :=
      findShow_newest (by rwa [taken_mem]) (by rwa [taken_bank])
    have run := loadShowOp_found (idle free) (loadable.mpr ok) found
    obtain ⟨working, comp, slots, eq⟩ := takeShow_spec (u := s.taken) w (taken_silenceFrom s)
    rw [taken_comp] at comp
    rw [taken_arm] at eq
    exact ⟨_, answers run, working, comp, slots, eq⟩
  · have found : findShow s.taken = (Table.put s.mem.recs b none, some (otherBank b, g, w)) := by
      rw [findShow_older (by rwa [taken_mem]) (by rwa [taken_bank]) (by rwa [taken_mem]) (by rwa [taken_bank]), taken_mem]
    have run := loadShowOp_found (idle free) (loadable.mpr ok) found
    rw [taken_mem] at run
    obtain ⟨working, comp, slots, eq⟩ := takeShow_spec
      (u := s.taken.setMem { s.mem with recs := Table.put s.mem.recs b none }) w (taken_silenceFrom s)
    rw [State.setMem_comp, taken_comp] at comp
    rw [State.setMem_arm, taken_arm] at eq
    have recs := congrArg (fun t => t.mem.recs) eq
    refine ⟨_, answers run, working, comp, slots, ?_, ?_, eq⟩
    · exact (congrArg (Table.at · b) recs).trans (Table.at_put_self _ _ _)
    · exact (congrArg (Table.at · (otherBank b)) recs).trans ((Table.at_put_ne _ _ (otherBank_ne b)).trans other)
  · obtain ⟨recs, found, gone⟩ := findShow_none (s := s.taken) fun b n record => by
      rw [taken_bank]
      exact fails b n (by rwa [taken_mem] at record)
    refine ⟨recs, gone 0, gone 1, ?_⟩
    have run := answers (loadShowOp_not_found (idle free) (loadable.mpr ok) found)
    rwa [taken_mem] at run

end Sys2Proof.Machine
end

section
/-! SUPPORT. The phases of a store: how each succeeds into the next, and what a store that ends FAILED leaves (section
10.3). -/

namespace Sys2Proof.Machine

/-! ## The events of a store -/

section

variable {s : State} {r : Store}

theorem storeIn_eq {p : StorePhase} (storing : s.mem.store = some r) (phase : r.phase = p) : s.storeIn p = some r := by
  unfold State.storeIn
  rw [storing]
  exact if_pos phase

theorem exec_eraseEnd (complete : Bool) (running : s.phase = .running) (storing : s.mem.store = some r)
    (phase : r.phase = .erasing) : exec (.eraseEnd complete) s = .next (eraseEnds complete r s) := by
  change execEraseEnd complete s = _
  unfold execEraseEnd
  rw [show s.runs = true from decide_eq_true running, storeIn_eq storing phase]

theorem exec_programmingEnd (taken : Bool) (running : s.phase = .running) (storing : s.mem.store = some r)
    (phase : r.phase = .programming) : exec (.programmingEnd taken) s = .next (programmingEnds taken r s) := by
  change execProgrammingEnd taken s = _
  unfold execProgrammingEnd
  rw [show s.runs = true from decide_eq_true running, storeIn_eq storing phase]

theorem exec_verifyEnd (same magicRead : Bool) (running : s.phase = .running) (storing : s.mem.store = some r)
    (phase : r.phase = .verifying) : exec (.verifyEnd same magicRead) s = .next (verifyEnds same magicRead r s) := by
  change execVerifyEnd same magicRead s = _
  unfold execVerifyEnd
  rw [show s.runs = true from decide_eq_true running, storeIn_eq storing phase]

theorem exec_storePhaseLimit (running : s.phase = .running) (storing : s.mem.store = some r) (now : s.now = r.limit) :
    exec .storePhaseLimit s = .next (failStore r s) := by
  have due : s.phaseLimitDue = some r := by
    unfold State.phaseLimitDue
    rw [storing, now]
    exact if_pos (by simp [since])
  change execStorePhaseLimit s = _
  unfold execStorePhaseLimit
  rw [show s.runs = true from decide_eq_true running, due]

/-! ## Success -/

theorem verifyEnds_good (same : readBytes (s.bank r.target) 4 (stagedBytes s.mem.staging).length
    = stagedBytes s.mem.staging) :
    verifyEnds true true r s = endStore true r (s.putBank r.target (writeBytes (s.bank r.target) 0 (byte4 magic))) := by
  unfold verifyEnds
  dsimp only
  rw [if_neg (by decide), if_neg (not_not.mpr same), if_pos rfl]

end

/-! ## Failure -/

/-- A store ends FAILED with these bytes in its target (R197). -/
def State.failed (r : Store) (bytes : Memory) (free : Nat) (s : State) : State :=
  endStore false r { s with mem := { s.mem with banks := Table.put s.mem.banks r.target bytes }, free := free }

/-- The bytes that a store may leave in its target when it ends FAILED in its phase (R195, R197): spoiled while its target
was, written as far as its phase goes. -/
structure LeavesBytes (r : Store) (s : State) (bytes : Memory) : Prop where
  invalid : r.phase = .erasing ∨ (MemoryLaw s.mem ∧ StoreLaw s.mem) → bytes.Spoiled
  partly : r.phase = .programming → MemoryLaw s.mem → PartlyProgrammed s.mem.staging (s.bank r.target) bytes

theorem failStore_eq (r : Store) (s : State) : ∃ free, failStore r s = s.failed r (s.stopped r) free := by
  obtain ⟨free, stop⟩ := stopPhase_eq r s
  refine ⟨free, ?_⟩
  unfold failStore State.failed
  rw [stop]

section

variable {s : State} {r : Store}

theorem spoiled_target (storing : s.mem.store = some r) (law : StoreLaw s.mem) : (s.bank r.target).Spoiled :=
  (law r storing).2

/-- What a stopped phase leaves. -/
theorem stopped_leaves (storing : s.mem.store = some r) : LeavesBytes r s (s.stopped r) where
  invalid h := by
    rcases h with erasing | ⟨_, law⟩
    · unfold State.stopped
      rw [erasing]
      exact spoiled_cleared _ (wfFrom_bytesFrom _ 0 _)
    · exact stopped_spoiled (spoiled_target storing law)
  partly phase law := stopped_programming law phase

/-- What a read-back leaves that finds bytes to differ: those bytes are free. -/
theorem differing_leaves {n : Nat} (storing : s.mem.store = some r) (phase : r.phase = .verifying) :
    LeavesBytes r s (writeBytes (s.bank r.target) 4 (partialBytes s.free 4 n)) where
  invalid h := by
    rcases h with erasing | ⟨_, law⟩
    · cases erasing.symm.trans phase
    · exact spoiled_writeBytes (spoiled_target storing law) (le_refl 4)
  partly programming := by cases programming.symm.trans phase

/-- What a magic leaves that does not read back. -/
theorem wrongMagic_leaves {v : Word} (phase : r.phase = .verifying) :
    LeavesBytes r s (writeBytes (s.bank r.target) 0 (byte4 (nonMagic v).toNat)) where
  invalid h := by
    rcases h with erasing | ⟨law, _⟩
    · cases erasing.symm.trans phase
    · exact spoiled_cleared _ (law.1 r.target)
  partly programming := by cases programming.symm.trans phase

/-- Every event that ends a store FAILED, with the bytes it leaves: above the magic those that stood there unless the
read-back found them to differ, and the magic unless it was found not to read back (R196, R197). -/
theorem store_fails {c : Instr} (running : s.phase = .running) (storing : s.mem.store = some r)
    (ends : (r.phase = .erasing ∧ c = .eraseEnd false)
      ∨ (r.phase = .programming ∧ c = .programmingEnd false)
      ∨ (r.phase = .verifying ∧ ∃ same read, c = .verifyEnd same read ∧ ((same && read) = false
        ∨ readBytes (s.bank r.target) 4 (stagedBytes s.mem.staging).length ≠ stagedBytes s.mem.staging))
      ∨ (s.now = r.limit ∧ c = .storePhaseLimit)) :
    ∃ bytes free, exec c s = .next (s.failed r bytes free) ∧ LeavesBytes r s bytes
      ∧ (r.phase = .verifying → (∀ read, c ≠ .verifyEnd false read) → ∀ a, 4 ≤ a →
          readByte bytes a = readByte (s.bank r.target) a)
      ∧ (r.phase = .verifying → (∀ read, c ≠ .verifyEnd true read) →
          ∀ a, a < 4 ∨ 4 + (stagedBytes s.mem.staging).length ≤ a →
          readByte bytes a = readByte (s.bank r.target) a) := by
  obtain ⟨free, stop⟩ := failStore_eq r s
  have stopped (event : exec c s = .next (failStore r s)) := And.intro (event.trans (congrArg _ stop))
    (And.intro (stopped_leaves storing) (And.intro
      (fun (phase : r.phase = .verifying) (_ : ∀ read, c ≠ .verifyEnd false read) a (_ : 4 ≤ a) =>
        congrArg (readByte · a) (stopped_verifying (s := s) phase))
      (fun (phase : r.phase = .verifying) (_ : ∀ read, c ≠ .verifyEnd true read) a
          (_ : a < 4 ∨ 4 + (stagedBytes s.mem.staging).length ≤ a) =>
        congrArg (readByte · a) (stopped_verifying (s := s) phase))))
  rcases ends with ⟨phase, rfl⟩ | ⟨phase, rfl⟩ | ⟨phase, same, read, rfl, differs⟩ | ⟨now, rfl⟩
  · exact ⟨_, _, stopped (exec_eraseEnd false running storing phase)⟩
  · exact ⟨_, _, stopped (exec_programmingEnd false running storing phase)⟩
  · cases same with
    | false =>
      refine ⟨writeBytes (s.bank r.target) 4 (partialBytes s.free 4 (stagedBytes s.mem.staging).length), s.free + 1,
        exec_verifyEnd false read running storing phase, differing_leaves storing phase,
        fun _ excluded => absurd rfl (excluded read), fun _ _ a outside => ?_⟩
      exact readByte_writeBytes_ne _ _ _ _ (by rw [length_partialBytes]; exact outside)
    | true =>
      by_cases matches_ : readBytes (s.bank r.target) 4 (stagedBytes s.mem.staging).length = stagedBytes s.mem.staging
      · obtain rfl : read = false := by
          rcases differs with no | other
          · simpa using no
          · exact absurd matches_ other
        refine ⟨writeBytes (s.bank r.target) 0 (byte4 (nonMagic (Config.clearedMagic s.free)).toNat), s.free + 1, ?_,
          wrongMagic_leaves phase, fun _ _ a above => ?_, fun _ excluded => absurd rfl (excluded false)⟩
        · rw [exec_verifyEnd true false running storing phase]
          unfold verifyEnds
          dsimp only
          rw [if_neg (by decide), if_neg (not_not.mpr matches_), if_neg (by decide)]
          rfl
        · exact readByte_writeBytes_ne _ _ _ _ (Or.inr (by rw [length_byte4]; omega))
      · refine ⟨_, _, stopped ?_⟩
        rw [exec_verifyEnd true read running storing phase]
        unfold verifyEnds
        dsimp only
        rw [if_neg (by decide), if_pos matches_]
  · exact ⟨_, _, stopped (exec_storePhaseLimit running storing now)⟩

end

/-- Settles O42: success goes on to the next phase, and every failure is the end of the store with the bytes that its phase
leaves. -/
theorem storePhasesEnd : Obligations.StorePhasesEnd := by
  constructor
  · intro s r running storing law staged
    refine ⟨fun phase => exec_eraseEnd true running storing phase, fun phase => ?_, fun phase same => ?_⟩
    · refine ⟨writeBytes (Table.at s.mem.banks r.target) 4 staged, exec_programmingEnd true running storing phase,
        readBytes_writeBytes _ 4 staged (law.1 r.target), readBytes_congr fun b _ below => ?_⟩
      exact readByte_writeBytes_below _ 4 b staged (by omega)
    · refine ⟨writeBytes (Table.at s.mem.banks r.target) 0 (byte4 magic), ?_, readMagic_write magic (law.1 r.target)
        (by decide), ?_⟩
      · rw [exec_verifyEnd true true running storing phase, verifyEnds_good same]
        rfl
      · refine Eq.trans (readBytes_congr fun b above _ => ?_) same
        exact readByte_writeBytes_ne _ 0 b _ (Or.inr (by rw [length_byte4]; omega))
  · intro c s r running storing staged ends
    obtain ⟨bytes, free, run, leaves, above, around⟩ := store_fails running storing ends
    have banks : (s.failed r bytes free).mem.banks = Table.put s.mem.banks r.target bytes := rfl
    refine ⟨_, run, Table.at_put_self _ _ _, ?_, ?_, ?_, ?_, Table.at_put_ne _ _ (otherBank_ne _),
      Table.at_put_ne _ _ (otherBank_ne _), rfl, rfl, rfl, rfl, rfl⟩
    all_goals rw [banks, Table.at_put_self]
    · exact fun h => checkBank_spoiled (leaves.invalid h)
    · exact leaves.partly
    · exact above
    · exact around

end Sys2Proof.Machine
end

section
/-! SUPPORT. The report unit: what becomes of an offer, POLL, and the bytes of a record (chapter 8). -/

namespace Sys2Proof.Machine

/-! ## Offers -/

theorem Report.kindCode_range (d : Report) : 1 ≤ d.kindCode ∧ d.kindCode ≤ 11 := by
  cases d <;> simp [Report.kindCode]

theorem Report.kindCode_inputChange {d : Report} : d.kindCode = 7 ↔ ∃ c l o, d = .inputChange c l o := by
  cases d <;> simp [Report.kindCode]

/-- The mask leaves a report out (R153). -/
abbrev Masked (mask : BitVec 9) (d : Report) : Prop :=
  2 ≤ d.kindCode ∧ d.kindCode ≤ 10 ∧ mask.getLsbD (d.kindCode - 2) = false

theorem admitted_eq_false {mask : BitVec 9} {d : Report} : d.admitted mask = false ↔ Masked mask d := by
  obtain ⟨lo, hi⟩ := d.kindCode_range
  unfold Report.admitted
  split
  · next always =>
    refine ⟨fun h => (by cases h), fun ⟨two, ten, _⟩ => ?_⟩
    omega
  · exact ⟨fun off => ⟨by omega, by omega, off⟩, fun ⟨_, _, off⟩ => off⟩

theorem admitted_eq_true {mask : BitVec 9} {d : Report} (h : ¬ Masked mask d) : d.admitted mask = true :=
  Bool.of_not_eq_false fun off => h (admitted_eq_false.mp off)

theorem Record.mergeable_iff {r : Record} : r.mergeable = true ↔ r.data.kindCode = 7 ∧ r.sent = false := by
  unfold Record.mergeable
  split
  · next data => simp [data, Report.kindCode]
  · next other =>
    refine ⟨fun h => (by cases h), fun ⟨kind, _⟩ => ?_⟩
    obtain ⟨c, l, o, data⟩ := Report.kindCode_inputChange.mp kind
    exact absurd data (other c l o)

section Offer

variable {mask : BitVec 9} {now : Time} {d : Report} {u : ReportUnit}

theorem offer_masked (h : Masked mask d) : u.offer mask now d = u := by
  unfold ReportUnit.offer
  rw [admitted_eq_false.mpr h]
  rfl

/-- An offer that is admitted and that no record takes is placed at the tail (R151). -/
theorem offer_placed (admitted : ¬ Masked mask d)
    (fresh : ¬ (d.kindCode = 7 ∧ ∃ r ∈ u.queue, r.data.kindCode = 7 ∧ r.sent = false)) :
    u.offer mask now d = u.place now d := by
  unfold ReportUnit.offer
  rw [admitted_eq_true admitted, if_neg (by decide)]
  split
  · next changed levels overrun =>
    refine if_neg fun merges => fresh ⟨rfl, ?_⟩
    obtain ⟨r, listed, unsent⟩ := List.any_eq_true.mp merges
    exact ⟨r, listed, Record.mergeable_iff.mp unsent⟩
  · rfl

theorem place_room (room : u.queue.length < 32) (seq : u.nextSeq ≤ 255) : u.place now d
    = ⟨u.queue ++ [⟨u.nextSeq, now, d, false⟩], if u.nextSeq = 255 then 1 else u.nextSeq + 1, u.lost⟩ := by
  unfold ReportUnit.place
  rw [if_neg (by omega), ReportUnit.append, nextSequence]
  by_cases last : u.nextSeq = 255
  · rw [if_pos last, if_pos last.ge]
  · rw [if_neg last, if_neg (by omega)]

theorem place_full (full : 32 ≤ u.queue.length) (few : u.lost ≤ 255) :
    u.place now d = { u with lost := if u.lost = 255 then 255 else u.lost + 1 } := by
  unfold ReportUnit.place
  rw [if_pos full]
  congr 1
  split <;> omega

/-- An INPUT_CHANGE merges into the first unsent one (R154). -/
theorem mergeInto_first {changed levels : BitVec 4} {before after : List Record} {r : Record}
    (skipped : ∀ x ∈ before, x.mergeable = false) (first : r.mergeable = true) :
    mergeInto now changed levels (before ++ r :: after) = before ++ r.merge now changed levels :: after := by
  induction before with
  | nil =>
    rw [List.nil_append, mergeInto, first]
    rfl
  | cons x rest ih =>
    rw [List.cons_append, mergeInto, skipped x List.mem_cons_self,
      ih fun y hy => skipped y (List.mem_cons_of_mem _ hy)]
    rfl

theorem offer_merged {changed levels overrun : BitVec 4} {before after : List Record} {r : Record}
    (admitted : ¬ Masked mask (.inputChange changed levels overrun)) (queue : u.queue = before ++ r :: after)
    (skipped : ∀ x ∈ before, x.mergeable = false) (first : r.mergeable = true) :
    u.offer mask now (.inputChange changed levels overrun)
      = { u with queue := before ++ r.merge now changed levels :: after } := by
  unfold ReportUnit.offer
  rw [admitted_eq_true admitted, if_neg (by decide)]
  dsimp only
  have some : u.queue.any Record.mergeable = true := by
    rw [List.any_eq_true]
    exact ⟨r, by rw [queue]; simp, first⟩
  rw [some, if_pos rfl, queue, mergeInto_first skipped first]

end Offer

/-! ## POLL -/

theorem settle_eq (u : ReportUnit) (now : Time) (ack : Nat) (seq : u.nextSeq ≤ 255) :
    u.settle now ack = match u.queue with
      | r :: rest =>
        if r.sequence = ack ∧ r.sent = true then
          if 1 ≤ u.lost then
            ⟨rest ++ [⟨u.nextSeq, now, .overflow u.lost, false⟩], if u.nextSeq = 255 then 1 else u.nextSeq + 1, 0⟩
          else ⟨rest, u.nextSeq, u.lost⟩
        else u
      | [] => u := by
  obtain ⟨queue, nextSeq, lost⟩ := u
  cases queue with
  | nil => rfl
  | cons r rest =>
    have acks : ReportUnit.acknowledges ack ⟨r :: rest, nextSeq, lost⟩
        = decide (r.sequence = ack ∧ r.sent = true) := by
      rw [ReportUnit.acknowledges, Bool.eq_iff_iff]
      simp
    have next : nextSequence nextSeq = if nextSeq = 255 then 1 else nextSeq + 1 := by
      unfold nextSequence
      by_cases last : nextSeq = 255
      · rw [if_pos last, if_pos last.ge]
      · have : nextSeq ≤ 255 := seq
        rw [if_neg last, if_neg (by omega)]
    unfold ReportUnit.settle ReportUnit.append
    simp only [acks, decide_eq_true_eq, List.tail_cons, next]

theorem carry_cons {u : ReportUnit} {r : Record} {rest : List Record} (queue : u.queue = r :: rest) :
    u.carry = ⟨{ r with sent := true } :: rest, u.nextSeq, u.lost⟩ := by
  unfold ReportUnit.carry
  rw [queue]

theorem carry_nil {u : ReportUnit} (queue : u.queue = []) : u.carry = u := by
  unfold ReportUnit.carry
  rw [queue]

/-- Settles O39: the cases of an offer, the settling and carrying of POLL, and the bytes of each kind. -/
theorem reportsAreQueuedAndPolled : Obligations.ReportsAreQueuedAndPolled := by
  refine ⟨fun mask now d u seq => ?_, fun h ack s takes => ?_, fun s => ?_, fun sequence time sent => ?_⟩
  · intro masked merges
    refine ⟨offer_masked, fun admitted fresh room => ?_, fun admitted fresh full few => ?_,
      fun before after r c l o changed levels overrun admitted change queue unsent data skipped => ?_⟩
    · rw [offer_placed admitted fresh, place_room room seq]
    · rw [offer_placed admitted fresh, place_full full few]
    · have first : r.mergeable = true := Record.mergeable_iff.mpr ⟨by rw [data]; rfl, unsent⟩
      subst change
      rw [offer_merged admitted queue
        (fun x hx => Bool.eq_false_iff.mpr fun m => skipped x hx (Record.mergeable_iff.mp m)) first, Record.merge, data]
  · intro u settled seq
    have settles : s.taken.report.settle s.taken.now ack.toNat = settled := by
      rw [taken_now]
      exact settle_eq u s.now ack.toNat seq
    have answers {t : State} {st : Status} {data : List Byte} (run : pollOp ack s.taken = (t, ⟨st, data⟩)) :
        Answers (.poll h ack) h 0x3C s t st data := answers_new h (.poll ack) s t st data takes rfl run
    refine ⟨fun r rest queue => answers ?_, fun queue => answers ?_⟩
    · rw [pollOp, settles, carry_cons queue]
      rfl
    · rw [pollOp, settles, carry_nil queue, ReportUnit.headBytes, queue]
      rfl
  · rw [State.attention, decide_eq_true_eq, ← List.isEmpty_eq_false_iff, List.isEmpty_eq_false_iff_exists_mem]
  · intro laid
    refine ⟨?_, ?_, ?_, fun n => ⟨rfl, rfl⟩, ?_, fun changed levels overrun => ?_, fun n => ⟨rfl, rfl⟩, fun b g => ⟨rfl, rfl⟩,
      ⟨rfl, rfl, rfl⟩, fun seconds => rfl, fun lost => rfl⟩
    · intro reason code g listed
      simp only [List.mem_cons, Prod.mk.injEq, List.not_mem_nil, or_false] at listed
      rcases listed with ⟨rfl, rfl⟩ | ⟨rfl, rfl⟩ | ⟨rfl, rfl⟩ | ⟨rfl, rfl⟩ <;> exact ⟨rfl, fun b => rfl⟩
    · intro n skipped source code listed
      simp only [List.mem_cons, Prod.mk.injEq, List.not_mem_nil, or_false] at listed
      rcases listed with ⟨rfl, rfl⟩ | ⟨rfl, rfl⟩ | ⟨rfl, rfl⟩ | ⟨rfl, rfl⟩ | ⟨rfl, rfl⟩ <;> rfl
    · intro n tag how code listed
      simp only [List.mem_cons, Prod.mk.injEq, List.not_mem_nil, or_false] at listed
      rcases listed with ⟨rfl, rfl⟩ | ⟨rfl, rfl⟩ <;> exact ⟨rfl, rfl⟩
    · intro k a kind st code action listed
      simp only [List.mem_cons, Prod.mk.injEq, List.not_mem_nil, or_false] at listed
      have kindOf : byte1 a.code = [kind] := by
        rcases action with ⟨rfl, rfl⟩ | ⟨_, rfl, rfl⟩ | ⟨rfl, rfl⟩ | ⟨rfl, rfl⟩ | ⟨rfl, rfl⟩ | ⟨_, rfl, rfl⟩
          | ⟨_, _, _, _, rfl, rfl⟩ | ⟨_, _, rfl, rfl⟩ <;> rfl
      have codeOf : byte1 st.code = [code] := by
        rcases listed with ⟨rfl, rfl⟩ | ⟨rfl, rfl⟩ | ⟨rfl, rfl⟩ | ⟨rfl, rfl⟩ | ⟨rfl, rfl⟩ <;> rfl
      change (⟨sequence, time, .armFired k a st, sent⟩ : Record).bytes = _
      rw [Record.bytes, Report.dataBytes]
      dsimp only
      rw [kindOf, codeOf]
      rfl
    · have nibble (x : BitVec 4) : byte1 x.toNat = [x.setWidth 8] := by rw [byte1, BitVec.ofNat_toNat]
      change (⟨sequence, time, .inputChange changed levels overrun, sent⟩ : Record).bytes = _
      rw [Record.bytes, Report.dataBytes]
      dsimp only
      rw [nibble, nibble, nibble]
      rfl

end Sys2Proof.Machine
end

section
/-! SUPPORT. Arm slots in bytes: every condition and action in range reads back from its bytes, and only from them; ARM and
DISARM (sections 5.1, 5.5 and 11.5). -/

namespace Sys2Proof.Machine

/-! ## Numbers in bytes -/

theorem byte_toNat {n : Nat} (h : n < 256) : (BitVec.ofNat 8 n).toNat = n := by
  rw [BitVec.toNat_ofNat]
  exact Nat.mod_eq_of_lt h

theorem half_toNat_byte2 {n : Nat} (h : n < 65536) : (half (BitVec.ofNat 8 n) (BitVec.ofNat 8 (n / 256))).toNat = n := by
  rw [half_toNat, BitVec.toNat_ofNat, BitVec.toNat_ofNat]
  omega

theorem word_toNat_byte4 {n : Nat} (h : n < 4294967296) : (word (BitVec.ofNat 8 n) (BitVec.ofNat 8 (n / 256))
    (BitVec.ofNat 8 (n / 65536)) (BitVec.ofNat 8 (n / 16777216))).toNat = n := by
  rw [word_toNat, BitVec.toNat_ofNat, BitVec.toNat_ofNat, BitVec.toNat_ofNat, BitVec.toNat_ofNat]
  omega

theorem mask3_byte3_toNat (m : ChanMask) : mask3 (BitVec.ofNat 8 m.toNat) (BitVec.ofNat 8 (m.toNat / 256))
    (BitVec.ofNat 8 (m.toNat / 65536)) = m := by
  rw [BitVec.ofNat_toNat]
  exact mask3_byte3 m

theorem byte1_of_toNat {b : Byte} {n : Nat} (h : b.toNat = n) : [b] = byte1 n := by rw [← h, byte1_toNat]

theorem byte2_half (a b : Byte) : [a, b] = byte2 (half a b).toNat := by
  have lo : a = BitVec.ofNat 8 (half a b).toNat := by
    apply BitVec.eq_of_toNat_eq
    rw [BitVec.toNat_ofNat, half_toNat]
    omega
  have hi : b = BitVec.ofNat 8 ((half a b).toNat / 256) := by
    apply BitVec.eq_of_toNat_eq
    rw [BitVec.toNat_ofNat, half_toNat]
    omega
  rw [byte2, ← lo, ← hi]

theorem byte4_word (a b c d : Byte) : [a, b, c, d] = byte4 (word a b c d).toNat := by
  have h0 : a = BitVec.ofNat 8 (word a b c d).toNat := by
    apply BitVec.eq_of_toNat_eq
    rw [BitVec.toNat_ofNat, word_toNat]
    omega
  have h1 : b = BitVec.ofNat 8 ((word a b c d).toNat / 256) := by
    apply BitVec.eq_of_toNat_eq
    rw [BitVec.toNat_ofNat, word_toNat]
    omega
  have h2 : c = BitVec.ofNat 8 ((word a b c d).toNat / 65536) := by
    apply BitVec.eq_of_toNat_eq
    rw [BitVec.toNat_ofNat, word_toNat]
    omega
  have h3 : d = BitVec.ofNat 8 ((word a b c d).toNat / 16777216) := by
    apply BitVec.eq_of_toNat_eq
    rw [BitVec.toNat_ofNat, word_toNat]
    omega
  rw [byte4, ← h0, ← h1, ← h2, ← h3]

theorem byte3_mask3 (a b c : Byte) : [a, b, c] = byte3 (mask3 a b c).toNat := by
  have h0 : a = BitVec.ofNat 8 (mask3 a b c).toNat := by
    apply BitVec.eq_of_toNat_eq
    rw [BitVec.toNat_ofNat, mask3_toNat]
    omega
  have h1 : b = BitVec.ofNat 8 ((mask3 a b c).toNat / 256) := by
    apply BitVec.eq_of_toNat_eq
    rw [BitVec.toNat_ofNat, mask3_toNat]
    omega
  have h2 : c = BitVec.ofNat 8 ((mask3 a b c).toNat / 65536) := by
    apply BitVec.eq_of_toNat_eq
    rw [BitVec.toNat_ofNat, mask3_toNat]
    omega
  rw [byte3, ← h0, ← h1, ← h2]

/-! ## Codes -/

theorem modeOf_eq_some {n : Nat} {m : Mode} : modeOf n = some m ↔ n = m.code := by
  constructor
  · intro h
    unfold modeOf at h
    split at h
    all_goals first | (obtain rfl := Option.some.inj h; rfl) | cases h
  · rintro rfl
    cases m <;> rfl

theorem edgeOf_eq_some {n : Nat} {e : Edge} : edgeOf n = some e ↔ n = e.code := by
  constructor
  · intro h
    unfold edgeOf at h
    split at h
    all_goals first | (obtain rfl := Option.some.inj h; rfl) | cases h
  · rintro rfl
    cases e <;> rfl

theorem directionOf_eq_some {n : Nat} {d : Direction} : directionOf n = some d ↔ n = d.code := by
  constructor
  · intro h
    unfold directionOf at h
    split at h
    all_goals first | (obtain rfl := Option.some.inj h; rfl) | cases h
  · rintro rfl
    cases d <;> rfl

theorem inputOf_eq_some {n : Nat} {i : Input} : inputOf n = some i ↔ n = i.val + 1 := by
  unfold inputOf
  constructor
  · intro h
    obtain ⟨range, eq⟩ := Option.dite_none_right_eq_some.mp h
    obtain rfl := Option.some.inj eq
    exact (Nat.sub_add_cancel range.1).symm
  · rintro rfl
    exact dif_pos ⟨by omega, by omega⟩

theorem slotOf_eq_some {n : Nat} {k : Fin 8} : slotOf n = some k ↔ n = k.val := by
  unfold slotOf
  constructor
  · intro h
    obtain ⟨range, eq⟩ := Option.dite_none_right_eq_some.mp h
    obtain rfl := Option.some.inj eq
    rfl
  · rintro rfl
    exact dif_pos k.isLt

theorem slotOf_eq_none {n : Nat} (h : 7 < n) : slotOf n = none := dif_neg (by omega)

theorem chanOf_mod (c : Chan) : chanOf (chanNumber c % 256) = some c := by
  have small : chanNumber c < 256 := by
    have := c.isLt
    unfold chanNumber
    omega
  rw [Nat.mod_eq_of_lt small]
  exact chanOf_eq_some.mpr rfl

/-! ## Conditions -/

/-- A condition in range reads back from its bytes, and its reserved bytes are 0 (R209). -/
theorem conditionOf_bytes {c : Condition} (range : c.inRange) :
    conditionOf c.bytes = some c ∧ conditionReserved c.bytes = true := by
  cases c with
  | inputEdge i e =>
    clear range
    cases e <;> revert i <;> decide
  | levelCross ch threshold dir =>
    obtain ⟨lo, hi⟩ := range
    have chan : chanOf (chanNumber ch % 256) = some ch := chanOf_mod ch
    have direction : directionOf (dir.code % 256) = some dir := by cases dir <;> rfl
    have value := half_toNat_byte2 (n := threshold) (by omega)
    simp [Condition.bytes, byte1, byte2, conditionOf, conditionReserved, chan, direction, value, lo, hi]
  | fadeProgress ch value =>
    obtain ⟨lo, hi⟩ := range
    have chan : chanOf (chanNumber ch % 256) = some ch := chanOf_mod ch
    have reads := half_toNat_byte2 (n := value) (by omega)
    simp [Condition.bytes, byte1, byte2, conditionOf, conditionReserved, chan, reads, lo, hi]
  | cueComplete n =>
    obtain ⟨lo, hi⟩ := range
    have reads := half_toNat_byte2 (n := n) (by omega)
    simp [Condition.bytes, byte1, byte2, conditionOf, conditionReserved, reads, lo, hi]

/-- Bytes that read as a condition, with the reserved ones 0, are the bytes of that condition. -/
theorem bytes_of_conditionOf {bytes : List Byte} {x : Condition} (h : conditionOf bytes = some x)
    (reserved : conditionReserved bytes = true) : bytes = x.bytes := by
  unfold conditionOf at h
  split at h
  · next k a b c d =>
    unfold conditionReserved at reserved
    dsimp only at reserved
    have join : [k, a, b, c, d] = [k] ++ [a] ++ [b, c] ++ [d] := rfl
    split at h
    · next kind =>
      split at h
      · next i e hi he =>
        obtain rfl := Option.some.inj h
        rw [kind] at reserved
        obtain ⟨rfl, rfl⟩ : c = 0 ∧ d = 0 := by simpa using reserved
        rw [Condition.bytes, ← byte1_of_toNat kind, ← byte1_of_toNat (inputOf_eq_some.mp hi),
          ← byte1_of_toNat (edgeOf_eq_some.mp he)]
        rfl
      · cases h
    · next kind =>
      split at h
      · next ch dir hc hd =>
        obtain ⟨_, eq⟩ := Option.ite_none_right_eq_some.mp h
        obtain rfl := Option.some.inj eq
        rw [Condition.bytes, ← byte1_of_toNat kind, ← byte1_of_toNat (chanOf_eq_some.mp hc), ← byte2_half,
          ← byte1_of_toNat (directionOf_eq_some.mp hd)]
        rfl
      · cases h
    · next kind =>
      split at h
      · next ch hc =>
        obtain ⟨_, eq⟩ := Option.ite_none_right_eq_some.mp h
        obtain rfl := Option.some.inj eq
        rw [kind] at reserved
        obtain rfl : d = 0 := by simpa using reserved
        rw [Condition.bytes, ← byte1_of_toNat kind, ← byte1_of_toNat (chanOf_eq_some.mp hc), ← byte2_half]
        rfl
      · cases h
    · next kind =>
      obtain ⟨_, eq⟩ := Option.ite_none_right_eq_some.mp h
      obtain rfl := Option.some.inj eq
      rw [kind] at reserved
      obtain ⟨rfl, rfl⟩ : c = 0 ∧ d = 0 := by simpa using reserved
      rw [Condition.bytes, ← byte1_of_toNat kind, ← byte2_half]
      rfl
    · cases h
  · cases h

/-! ## Actions -/

/-- An action in range reads back from its bytes, and its reserved bytes are 0 (R209). -/
theorem actionOf_bytes {a : ArmAction} (range : a.inRange) :
    actionOf a.bytes = some a ∧ actionReserved a.bytes = true := by
  cases a with
  | go => decide
  | back => decide
  | pause => decide
  | resume => decide
  | goTo n =>
    obtain ⟨lo, hi⟩ := range
    have reads := half_toNat_byte2 (n := n) (by omega)
    simp [ArmAction.bytes, ArmAction.code, byte1, byte2, actionOf, actionReserved, reads, lo, hi]
  | release time =>
    have limit : time ≤ 60000 := range
    have reads := half_toNat_byte2 (n := time) (by omega)
    simp [ArmAction.bytes, ArmAction.code, byte1, byte2, actionOf, actionReserved, reads, limit]
  | fade mask target time curve =>
    obtain ⟨some, level, limit, id⟩ := range
    have targets := half_toNat_byte2 (n := target) (by omega)
    have times := word_toNat_byte4 (n := time) (by omega)
    have masks := mask3_byte3_toNat mask
    have curves := byte_toNat (n := curve) (by omega)
    simp only [ArmAction.bytes, ArmAction.code, byte1, byte2, byte3, byte4, List.cons_append, List.nil_append, actionOf,
      actionReserved, masks, targets, times, curves]
    exact ⟨if_pos ⟨some, level, limit, id⟩, rfl⟩
  | setMaster level time =>
    obtain ⟨top, limit⟩ := range
    have levels := half_toNat_byte2 (n := level) (by omega)
    have times := half_toNat_byte2 (n := time) (by omega)
    simp [ArmAction.bytes, ArmAction.code, byte1, byte2, actionOf, actionReserved, levels, times, top, limit]

/-- Bytes that read as an action, with the reserved ones 0, are the bytes of that action. -/
theorem bytes_of_actionOf {bytes : List Byte} {x : ArmAction} (h : actionOf bytes = some x)
    (reserved : actionReserved bytes = true) : bytes = x.bytes := by
  have zeros {l : List Byte} (h : l.all (· == 0) = true) : l = List.replicate l.length 0 :=
    List.eq_replicate_of_mem fun b hb => by simpa using List.all_eq_true.mp h b hb
  unfold actionOf at h
  split at h
  · next k b0 b1 b2 b3 b4 b5 b6 b7 b8 b9 =>
    unfold actionReserved at reserved
    dsimp only at reserved
    have plain {a : ArmAction} (kind : [k] = byte1 a.code) (h : some a = some x)
        (layout : a.bytes = byte1 a.code ++ List.replicate 10 0)
        (rest : [b0, b1, b2, b3, b4, b5, b6, b7, b8, b9].all (· == 0) = true) :
        [k, b0, b1, b2, b3, b4, b5, b6, b7, b8, b9] = x.bytes := by
      obtain rfl := Option.some.inj h
      rw [layout, ← kind]
      exact congrArg (k :: ·) (zeros rest)
    split at h
    · next kind =>
      rw [kind] at reserved
      exact plain (a := .go) (byte1_of_toNat kind) h rfl reserved
    · next kind =>
      obtain ⟨_, eq⟩ := Option.ite_none_right_eq_some.mp h
      obtain rfl := Option.some.inj eq
      rw [kind] at reserved
      rw [ArmAction.bytes, ArmAction.code, ← byte1_of_toNat kind, ← byte2_half]
      exact congrArg (fun l => k :: b0 :: b1 :: l) (zeros reserved)
    · next kind =>
      rw [kind] at reserved
      exact plain (a := .back) (byte1_of_toNat kind) h rfl reserved
    · next kind =>
      rw [kind] at reserved
      exact plain (a := .pause) (byte1_of_toNat kind) h rfl reserved
    · next kind =>
      rw [kind] at reserved
      exact plain (a := .resume) (byte1_of_toNat kind) h rfl reserved
    · next kind =>
      obtain ⟨_, eq⟩ := Option.ite_none_right_eq_some.mp h
      obtain rfl := Option.some.inj eq
      rw [kind] at reserved
      rw [ArmAction.bytes, ArmAction.code, ← byte1_of_toNat kind, ← byte2_half]
      exact congrArg (fun l => k :: b0 :: b1 :: l) (zeros reserved)
    · next kind =>
      obtain ⟨_, eq⟩ := Option.ite_none_right_eq_some.mp h
      obtain rfl := Option.some.inj eq
      rw [ArmAction.bytes, ArmAction.code, ← byte1_of_toNat kind, ← byte3_mask3, ← byte2_half, ← byte4_word, byte1_toNat]
      rfl
    · next kind =>
      obtain ⟨_, eq⟩ := Option.ite_none_right_eq_some.mp h
      obtain rfl := Option.some.inj eq
      rw [kind] at reserved
      rw [ArmAction.bytes, ArmAction.code, ← byte1_of_toNat kind, ← byte2_half, ← byte2_half]
      exact congrArg (fun l => k :: b0 :: b1 :: b2 :: b3 :: l) (zeros reserved)
    · cases h
  · cases h

/-! ## ARM, DISARM and READ_ARM -/

theorem armDefOf_bytes {d : ArmDef} (condition : d.condition.inRange) (action : d.action.inRange) :
    armDefOf d.mode.code d.condition.bytes d.action.bytes = some d := by
  unfold armDefOf
  rw [modeOf_eq_some.mpr rfl, (conditionOf_bytes condition).1, (actionOf_bytes action).1]

theorem bytes_of_armDefOf {mode : Byte} {condition action : List Byte} {d : ArmDef}
    (h : armDefOf mode.toNat condition action = some d) (reservedC : conditionReserved condition = true)
    (reservedA : actionReserved action = true) :
    mode = BitVec.ofNat 8 d.mode.code ∧ condition = d.condition.bytes ∧ action = d.action.bytes := by
  unfold armDefOf at h
  split at h
  · next hm hc ha =>
    obtain rfl := Option.some.inj h
    refine ⟨?_, bytes_of_conditionOf hc reservedC, bytes_of_actionOf ha reservedA⟩
    rw [← modeOf_eq_some.mp hm, BitVec.ofNat_toNat, BitVec.setWidth_eq]
  · cases h

section Slots

variable {slot mode : Byte} {condition action : List Byte} {s : State} {k : Fin 8}

/-- The state with this slot, its memory, and its flag cleared (R112, R113). -/
def State.withSlot (k : Fin 8) (d : Option ArmDef) (memory : Option Nat) (s : State) : State := { s with
  working := { s.working with arms := Table.put s.working.arms k d }
  arm := { s.arm with memory := Table.put s.arm.memory k memory, fired := Table.put s.arm.fired k false } }

theorem armOp_good {d : ArmDef} (number : slotOf slot.toNat = some k)
    (read : armDefOf mode.toNat condition action = some d) :
    armOp slot mode condition action s = (s.withSlot k (some d) (s.initialMemory d.condition),
      ⟨.done, byte1 k.val ++ byte1 (flag (s.slot k).isSome) ++ opt2 (s.initialMemory d.condition)⟩) := by
  unfold armOp
  rw [number, read]
  rfl

theorem armOp_bad (bad : slotOf slot.toNat = none ∨ armDefOf mode.toNat condition action = none) :
    armOp slot mode condition action s = refuse .badValue s := by
  unfold armOp
  rcases bad with bad | bad
  · rw [bad]
  · rw [bad]
    cases slotOf slot.toNat <;> rfl

theorem disarmOp_good (number : slotOf slot.toNat = some k) :
    disarmOp slot s = (s.withSlot k none none, ⟨.done, byte1 (flag (s.slot k).isSome)⟩) := by
  unfold disarmOp
  rw [number]
  rfl

theorem disarmOp_bad (bad : slotOf slot.toNat = none) : disarmOp slot s = refuse .badValue s := by
  unfold disarmOp
  rw [bad]

theorem readArmOp_bad (bad : slotOf slot.toNat = none) : readArmOp slot s = refuse .badValue s := by
  unfold readArmOp
  rw [bad]

theorem slotOf_ofNat (k : Fin 8) : slotOf (BitVec.ofNat 8 k.val).toNat = some k := by
  rw [byte_toNat (by omega), slotOf_eq_some]

theorem mode_toNat (m : Mode) : (BitVec.ofNat 8 m.code).toNat = m.code := by cases m <;> rfl

theorem Condition.length_bytes (c : Condition) : c.bytes.length = 5 := by cases c <;> rfl

theorem ArmAction.length_bytes (a : ArmAction) : a.bytes.length = 11 := by cases a <;> rfl

theorem taken_withSlot (k : Fin 8) (d : Option ArmDef) (memory : Option Nat) (s : State) :
    s.taken.withSlot k d memory = { s.taken with
      working := { s.working with arms := Table.put s.working.arms k d }
      arm := { s.arm with memory := Table.put s.arm.memory k memory, fired := Table.put s.arm.fired k false } } := by
  rw [State.withSlot, taken_working, taken_arm]

end Slots

/-- Settles O36: a slot above 7 and bytes that stand for no slot in range are refused, by the line interface for a reserved
byte and else by the arm monitor. -/
theorem armAndDisarmWriteASlot : Obligations.ArmAndDisarmWriteASlot := by
  refine ⟨fun h k s => ?_, fun h slot mode condition action s => ⟨fun takes five eleven bad => ?_, ?_, ?_⟩⟩
  · intro was written
    have already : byte1 (flag (s.taken.slot k).isSome) = was := by rw [taken_slot]; rfl
    refine ⟨fun d takes condition action => ?_, fun takes => ?_⟩
    · intro memory
      have initial : s.taken.initialMemory d.condition = memory := by
        unfold State.initialMemory memory
        simp only [taken_chan, taken_now]
        cases d.condition <;> rfl
      refine answers_new h (.arm _ _ d.condition.bytes d.action.bytes) s _ _ _ takes (lineCheck_ok _ ?_ ?_) ?_
      · exact decide_eq_true ⟨d.condition.length_bytes, d.action.length_bytes⟩
      · exact Bool.and_eq_true_iff.mpr ⟨(conditionOf_bytes condition).2, (actionOf_bytes action).2⟩
      · change armOp _ _ _ _ s.taken = _
        rw [armOp_good (slotOf_ofNat k) (d := d) (by rw [mode_toNat]; exact armDefOf_bytes condition action), initial,
          already, taken_withSlot]
    · refine answers_new h (.disarm _) s _ _ _ takes rfl ?_
      change disarmOp _ s.taken = _
      rw [disarmOp_good (slotOf_ofNat k), already, taken_withSlot]
  · by_cases reserved : reservedOk (.arm slot mode condition action) = true
    · refine refuses_new h (.arm slot mode condition action) s _ takes
        (lineCheck_ok _ (decide_eq_true ⟨five, eleven⟩) reserved) (armOp_bad ?_)
      obtain ⟨reservedC, reservedA⟩ := Bool.and_eq_true_iff.mp reserved
      rcases bad with high | none
      · exact Or.inl (slotOf_eq_none high)
      · refine Or.inr (Option.eq_none_iff_forall_not_mem.mpr fun d read => none ⟨d, ?_⟩)
        obtain ⟨inC, inA⟩ := armDefOf_inRange read
        exact ⟨inC, inA, bytes_of_armDefOf read reservedC reservedA⟩
    · have failed : lineCheck (.arm slot mode condition action) = .error .badValue := by
        rw [lineCheck, show Message.lengthOk (.arm slot mode condition action) = true from
          decide_eq_true ⟨five, eleven⟩, Bool.eq_false_iff.mpr reserved]
        rfl
      change exec (commandOf h (.arm slot mode condition action)) s = _
      rw [exec_commandOf, frameArrives_failed h (.arm slot mode condition action) s takes _ failed]
      rfl
  · exact fun takes high => refuses_new h (.disarm slot) s _ takes rfl (disarmOp_bad (slotOf_eq_none high))
  · exact fun takes high => refuses_new h (.readArm slot) s _ takes rfl (readArmOp_bad (slotOf_eq_none high))

end Sys2Proof.Machine
end

section
/-! SUPPORT. The show image read back item by item: each reader returns what its encoding wrote and leaves the bytes after
it. -/

namespace Sys2Proof.Machine

/-! ## Readers and encodings -/

/-- The reader takes the value from its bytes, whatever follows them. -/
def Reads {α : Type} (item : Reader α) (bytes : List Byte) (x : α) : Prop :=
  ∀ rest, item (bytes ++ rest) = some (x, rest)

theorem readMany_flatMap {α β : Type} {item : Reader β} {bytes : α → List Byte} {value : α → β} {l : List α}
    (each : ∀ x ∈ l, Reads item (bytes x) (value x)) : Reads (readMany item l.length) (l.flatMap bytes) (l.map value) := by
  intro rest
  induction l with
  | nil => rfl
  | cons x l ih =>
    have first := each x List.mem_cons_self (l.flatMap bytes ++ rest)
    have others := ih fun y hy => each y (List.mem_cons_of_mem _ hy)
    rw [List.flatMap_cons, List.append_assoc, List.length_cons, readMany, first]
    dsimp only
    rw [others]
    rfl

theorem readMany_bytes {α : Type} {item : Reader α} {bytes : α → List Byte} {l : List α}
    (each : ∀ x ∈ l, Reads item (bytes x) x) : Reads (readMany item l.length) (l.flatMap bytes) l := by
  have := readMany_flatMap (value := id) each
  rwa [List.map_id] at this

theorem reads_byte {n : Nat} (h : n < 256) : Reads read1 (byte1 n) n := fun rest => by
  have : read1 (byte1 n ++ rest) = some ((BitVec.ofNat 8 n).toNat, rest) := rfl
  rw [this, byte_toNat h]

theorem reads_word {n : Nat} (h : n < 4294967296) : Reads read4 (byte4 n) n := fun rest => by
  have : read4 (byte4 n ++ rest) = some ((word (BitVec.ofNat 8 n) (BitVec.ofNat 8 (n / 256))
    (BitVec.ofNat 8 (n / 65536)) (BitVec.ofNat 8 (n / 16777216))).toNat, rest) := rfl
  rw [this, word_toNat_byte4 h]

theorem tableOf_entries {α : Type} {n : Nat} (t : Table α n) : tableOf n t.entries = some t := by
  unfold tableOf
  rw [dif_pos t.length_entries]
  refine congrArg some (Table.ext_at fun i => ?_)
  simp [Table.at, Table.entries]

/-! ## The configuration -/

/-- Two configurations with the same values are the same (R180). -/
theorem Params.ext_value {p q : Params} (h : ∀ id, 1 ≤ id → id ≤ 23 → p.value id = q.value id) : p = q := by
  have roles : ∀ a b : Role, roleCode a = roleCode b → a = b := fun a b => by cases a <;> cases b <;> simp [roleCode]
  have polarities : ∀ a b : Polarity, polarityCode a = polarityCode b → a = b := fun a b => by
    cases a <;> cases b <;> simp [polarityCode]
  have flags : ∀ a b : Bool, flag a = flag b → a = b := by decide
  have role : p.role = q.role := Table.ext_at fun i => roles _ _ <| match i with
    | 0 => h 6 (by decide) (by decide)
    | 1 => h 7 (by decide) (by decide)
    | 2 => h 8 (by decide) (by decide)
    | 3 => h 9 (by decide) (by decide)
  have polarity : p.polarity = q.polarity := Table.ext_at fun i => polarities _ _ <| match i with
    | 0 => h 10 (by decide) (by decide)
    | 1 => h 11 (by decide) (by decide)
    | 2 => h 12 (by decide) (by decide)
    | 3 => h 13 (by decide) (by decide)
  have report : p.report = q.report := Table.ext_at fun i => flags _ _ <| match i with
    | 0 => h 14 (by decide) (by decide)
    | 1 => h 15 (by decide) (by decide)
    | 2 => h 16 (by decide) (by decide)
    | 3 => h 17 (by decide) (by decide)
  have groups : p.groupMask = q.groupMask := BitVec.eq_of_toNat_eq (h 18 (by decide) (by decide))
  have enable : p.reportEnable = q.reportEnable := BitVec.eq_of_toNat_eq (h 23 (by decide) (by decide))
  have silence : p.silenceAction = q.silenceAction := by
    have := h 20 (by decide) (by decide)
    revert this
    simp only [Params.value]
    cases p.silenceAction <;> cases q.silenceAction <;> simp
  have framePeriod : p.framePeriod = q.framePeriod := h 1 (by decide) (by decide)
  have pwm : p.pwmFrequency = q.pwmFrequency := h 2 (by decide) (by decide)
  have slots : p.chainSlots = q.chainSlots := h 3 (by decide) (by decide)
  have clock : p.chainClock = q.chainClock := h 4 (by decide) (by decide)
  have debounce : p.debounce = q.debounce := h 5 (by decide) (by decide)
  have silenceTime : p.silenceTime = q.silenceTime := h 19 (by decide) (by decide)
  have safeCue : p.safeCue = q.safeCue := h 21 (by decide) (by decide)
  have backTime : p.backTime = q.backTime := h 22 (by decide) (by decide)
  cases p
  cases q
  simp_all

theorem paramsFrom_values {source : Params} {ids : List Nat} (distinct : ids.Nodup)
    (ok : ∀ id ∈ ids, paramOk id (source.value id) = true) (p : Params) :
    ∃ q, paramsFrom (ids.zip (ids.map source.value)) p = some q
      ∧ ∀ id, q.value id = if id ∈ ids then source.value id else p.value id := by
  induction ids generalizing p with
  | nil => exact ⟨p, rfl, fun id => by simp⟩
  | cons id ids ih =>
    obtain ⟨fresh, distinct⟩ := List.nodup_cons.mp distinct
    have here := ok id List.mem_cons_self
    obtain ⟨q, read, values⟩ := ih distinct (fun x hx => ok x (List.mem_cons_of_mem _ hx)) (p.set id (source.value id))
    refine ⟨q, (if_pos here).trans read, fun x => ?_⟩
    rw [values x]
    by_cases hx : x = id
    · subst hx
      simp [fresh, Params.value_set here]
    · simp [hx, Params.value_set_ne hx]

theorem mem_paramIds {id : Nat} : id ∈ paramIds ↔ 1 ≤ id ∧ id ≤ 23 := by
  simp only [paramIds, List.mem_map, List.mem_range]
  exact ⟨fun ⟨k, hk, eq⟩ => by omega, fun ⟨lo, hi⟩ => ⟨id - 1, by omega, by omega⟩⟩

theorem paramsFrom_self {p : Params} (law : ParamsLaw p) (q : Params) :
    paramsFrom (paramIds.zip (paramIds.map p.value)) q = some p := by
  have ok : ∀ id ∈ paramIds, paramOk id (p.value id) = true := fun id hid =>
    law id (mem_paramIds.mp hid).1 (mem_paramIds.mp hid).2
  obtain ⟨r, read, values⟩ := paramsFrom_values (by decide) ok q
  have same : r = p := Params.ext_value fun id lo hi => by rw [values id, if_pos (mem_paramIds.mpr ⟨lo, hi⟩)]
  rw [read, same]

/-- No allowed value needs more than 4 bytes (R180). -/
theorem paramOk_lt {id v : Nat} (ok : paramOk id v = true) : v < 4294967296 := by
  unfold paramOk at ok
  split at ok <;> simp at ok <;> omega

/-! ## Outputs, curves and points -/

theorem reads_output {o : Output} (threshold : o.threshold ≤ 4095) (floor : o.min ≤ 4095) :
    Reads readOutput o.bytes o := fun rest => by
  obtain ⟨source, law, t, m⟩ := o
  have source_lt : sourceNumber source < 256 := by
    cases source with
    | none => decide
    | some c =>
      have := c.isLt
      simp only [sourceNumber, chanNumber]
      omega
  have law_lt : law.code < 256 := by cases law <;> decide
  have parsed : outputOf ⟨BitVec.ofNat 8 (sourceNumber source), BitVec.ofNat 8 law.code,
      half (BitVec.ofNat 8 t) (BitVec.ofNat 8 (t / 256)), half (BitVec.ofNat 8 m) (BitVec.ofNat 8 (m / 256))⟩
      = some ⟨source, law, t, m⟩ := by
    dsimp only at threshold floor
    unfold outputOf
    dsimp only
    rw [byte_toNat source_lt, byte_toNat law_lt, half_toNat_byte2 (by omega), half_toNat_byte2 (by omega),
      sourceOf_eq_some.mpr rfl, lawOf_eq_some.mpr rfl]
    exact if_pos ⟨threshold, floor⟩
  have read : readOutput (Output.bytes ⟨source, law, t, m⟩ ++ rest) = (outputOf ⟨BitVec.ofNat 8 (sourceNumber source),
      BitVec.ofNat 8 law.code, half (BitVec.ofNat 8 t) (BitVec.ofNat 8 (t / 256)),
      half (BitVec.ofNat 8 m) (BitVec.ofNat 8 (m / 256))⟩).map (·, rest) := rfl
  rw [read, parsed]
  rfl

theorem reads_point {p : Point} (hx : p.x ≤ 1000) (hy : p.y ≤ 1000) : Reads readPoint p.bytes p := fun rest => by
  obtain ⟨x, y⟩ := p
  have read : readPoint (Point.bytes ⟨x, y⟩ ++ rest) = some (⟨(half (BitVec.ofNat 8 x) (BitVec.ofNat 8 (x / 256))).toNat,
      (half (BitVec.ofNat 8 y) (BitVec.ofNat 8 (y / 256))).toNat⟩, rest) := rfl
  dsimp only at hx hy
  rw [read, half_toNat_byte2 (by omega), half_toNat_byte2 (by omega)]

theorem Shaped.x_le {points : List Point} (h : Shaped points) {p : Point} (hp : p ∈ points) : p.x ≤ 1000 := by
  obtain ⟨before, rfl⟩ := List.getLast?_eq_some_iff.mp h.last
  rcases List.mem_append.mp hp with mem | mem
  · exact ((List.pairwise_append.mp h.rising).2.2 p mem _ List.mem_cons_self).le
  · rw [List.mem_singleton.mp mem]

theorem shape_count {points : List Point} (h : shapeOk points = true) : 2 ≤ points.length ∧ points.length ≤ 32 := by
  simp only [shapeOk, Bool.and_eq_true, decide_eq_true_eq] at h
  exact h.1.1.1.1

theorem reads_curve {c : Option (List Point)} (shape : ∀ pts, c = some pts → shapeOk pts = true) :
    Reads readCurve (curveBytes c) c := fun rest => by
  cases c with
  | none => rfl
  | some pts =>
    have ok := shape pts rfl
    have shaped := shaped_of_shapeOk ok
    obtain ⟨two, limit⟩ := shape_count ok
    obtain ⟨n, length⟩ : ∃ n, pts.length = n + 1 := ⟨pts.length - 1, by omega⟩
    have count := reads_byte (n := pts.length) (by omega) (pts.flatMap Point.bytes ++ rest)
    have points := readMany_bytes (item := readPoint)
      (fun p (hp : p ∈ pts) => reads_point (shaped.x_le hp) (shaped.low p hp)) rest
    rw [length] at count points
    have split : curveBytes (some pts) ++ rest = byte1 (n + 1) ++ (pts.flatMap Point.bytes ++ rest) := by
      rw [curveBytes, length, List.append_assoc]
    rw [split, readCurve, count]
    dsimp only
    rw [if_neg (by omega), points]
    exact if_pos ok

/-! ## Cues -/

theorem reads_action {a : Action} (range : a.inRange) : Reads readAction a.bytes a := fun rest => by
  obtain ⟨channel, target, time, delay, curve⟩ := a
  let r : RawAction := ⟨BitVec.ofNat 8 (chanNumber channel), half (BitVec.ofNat 8 target) (BitVec.ofNat 8 (target / 256)),
    word (BitVec.ofNat 8 time) (BitVec.ofNat 8 (time / 256)) (BitVec.ofNat 8 (time / 65536))
      (BitVec.ofNat 8 (time / 16777216)),
    half (BitVec.ofNat 8 delay) (BitVec.ofNat 8 (delay / 256)), BitVec.ofNat 8 curve⟩
  have read : readAction (Action.bytes ⟨channel, target, time, delay, curve⟩ ++ rest) = (actionRecordOf r).map (·, rest) := rfl
  obtain ⟨ht, hm, hd, hc⟩ := range
  dsimp only at ht hm hd hc
  have number := channel.isLt
  have channel_lt : chanNumber channel < 256 := by
    simp only [chanNumber]
    omega
  have parsed : actionRecordOf r = some ⟨channel, target, time, delay, curve⟩ := by
    unfold actionRecordOf
    simp only [r]
    rw [byte_toNat channel_lt, half_toNat_byte2 (by omega), half_toNat_byte2 (by omega), word_toNat_byte4 (by omega),
      byte_toNat (by omega), chanOf_eq_some.mpr rfl]
    exact if_pos ⟨ht, hm, hd, hc⟩
  rw [read, parsed]
  rfl

theorem order_risingChannels {l : List Action} (h : ActionsInOrder l) : risingChannels l = true := by
  have chain := List.isChain_iff_pairwise.mpr h
  induction l with
  | nil => rfl
  | cons a rest ih =>
    cases rest with
    | nil => rfl
    | cons b rest =>
      obtain ⟨lt, chain⟩ := List.isChain_cons_cons.mp chain
      simp only [risingChannels, Bool.and_eq_true, decide_eq_true_eq]
      exact ⟨lt, ih h.tail.2 chain⟩

theorem order_risingCues {l : List Cue} (h : CuesInOrder l) : risingCues l = true := by
  have chain := List.isChain_iff_pairwise.mpr h
  induction l with
  | nil => rfl
  | cons a rest ih =>
    cases rest with
    | nil => rfl
    | cons b rest =>
      obtain ⟨lt, chain⟩ := List.isChain_cons_cons.mp chain
      simp only [risingCues, Bool.and_eq_true, decide_eq_true_eq]
      exact ⟨lt, ih h.tail.2 chain⟩

/-- A cue holds at most one action a channel (R30). -/
theorem ActionsInOrder.length_le {l : List Action} (h : ActionsInOrder l) : l.length ≤ 24 := by
  have distinct : (l.map (·.channel)).Nodup := List.Pairwise.imp ne_of_lt h
  have := distinct.length_le_card
  rwa [List.length_map, Fintype.card_fin] at this

theorem followOf_opt4 {follow : Option Nat} (limit : ∀ t, follow = some t → t ≤ 600000) :
    ∃ a b c d, opt4 follow = [a, b, c, d] ∧ followOf (word a b c d) = some follow := by
  cases follow with
  | none => exact ⟨_, _, _, _, rfl, by decide⟩
  | some t =>
    have small := limit t rfl
    have value := word_toNat_byte4 (n := t) (by omega)
    refine ⟨_, _, _, _, rfl, ?_⟩
    unfold followOf
    rw [value, if_neg, if_pos small]
    intro absent
    rw [absent] at value
    have : (0xFFFFFFFF : Word).toNat = 4294967295 := by decide
    omega

theorem reads_cue {q : Cue} (lo : 1 ≤ q.number) (hi : q.number ≤ 9999) (follow : ∀ t, q.follow = some t → t ≤ 600000)
    (some_action : q.actions ≠ []) (order : ActionsInOrder q.actions) (ranges : ∀ a ∈ q.actions, a.inRange) :
    Reads readCue q.bytes q := fun rest => by
  obtain ⟨number, f, actions⟩ := q
  dsimp only at lo hi follow some_action order ranges
  have few := order.length_le
  have one : 1 ≤ actions.length := List.length_pos_iff.mpr some_action
  obtain ⟨a, b, c, d, bytes, parsed⟩ := followOf_opt4 follow
  have count : (BitVec.ofNat 8 actions.length).toNat = actions.length := byte_toNat (by omega)
  have value := half_toNat_byte2 (n := number) (by omega)
  have split : Cue.bytes ⟨number, f, actions⟩ ++ rest = BitVec.ofNat 8 number :: BitVec.ofNat 8 (number / 256)
      :: a :: b :: c :: d :: BitVec.ofNat 8 actions.length :: (actions.flatMap Action.bytes ++ rest) := by
    simp [Cue.bytes, bytes, byte1, byte2]
  have items := readMany_bytes (item := readAction) (fun x (hx : x ∈ actions) => reads_action (ranges x hx)) rest
  rw [split, readCue]
  rw [parsed, value, count]
  dsimp only
  rw [if_neg (by omega), items]
  exact if_pos (order_risingChannels order)

/-! ## Arm slots -/

theorem reads_slot {d : Option ArmDef} (law : ∀ x, d = some x → x.condition.inRange ∧ x.action.inRange) :
    Reads readSlot (slotBytes d) d := fun rest => by
  cases d with
  | none => rfl
  | some d =>
    obtain ⟨condition, action⟩ := law d rfl
    have split : slotBytes (some d) ++ rest
        = 1 :: BitVec.ofNat 8 d.mode.code :: (d.condition.bytes ++ (d.action.bytes ++ rest)) := by
      simp [slotBytes, armBytes, byte1, flag]
    have five := d.condition.length_bytes
    have eleven := d.action.length_bytes
    have takeCondition : (d.condition.bytes ++ (d.action.bytes ++ rest)).take 5 = d.condition.bytes := by
      rw [← five, List.take_left]
    have dropCondition : (d.condition.bytes ++ (d.action.bytes ++ rest)).drop 5 = d.action.bytes ++ rest := by
      rw [← five, List.drop_left]
    have takeAction : (d.action.bytes ++ rest).take 11 = d.action.bytes := by rw [← eleven, List.take_left]
    have dropBoth : (d.condition.bytes ++ (d.action.bytes ++ rest)).drop 16 = rest := by
      rw [show 16 = 5 + 11 from rfl, ← List.drop_drop, dropCondition, ← eleven, List.drop_left]
    have long : ¬ (d.condition.bytes ++ (d.action.bytes ++ rest)).length < 16 := by
      simp only [List.length_append]
      omega
    rw [split, readSlot, takeCondition, dropCondition, takeAction, dropBoth, if_neg long, if_neg (by decide),
      if_pos ⟨rfl, (conditionOf_bytes condition).2, (actionOf_bytes action).2⟩, mode_toNat, armDefOf_bytes condition action]
    rfl

/-! ## The image -/

theorem withinLimits_of_laws {w : Show} (curves : CurveLaw w) (cues : CueListLaw w)
    (defined : ∀ q ∈ w.cues, ∀ a ∈ q.actions, (w.curve a.curve).isSome) : w.withinLimits = true := by
  obtain ⟨count, actions, order, _⟩ := cues
  simp only [Show.withinLimits, Bool.and_eq_true, decide_eq_true_eq, List.all_eq_true]
  exact ⟨⟨⟨⟨curves.1, count⟩, actions⟩, order_risingCues order⟩, defined⟩

/-- The image of a show within its limits reads back as that show (R189, R190, R211). -/
theorem Show.ofImage_image {w : Show} (params : ParamsLaw w.params) (patch : PatchLaw w) (curves : CurveLaw w)
    (cues : CueListLaw w) (arms : ArmLaw w)
    (defined : ∀ q ∈ w.cues, ∀ a ∈ q.actions, (w.curve a.curve).isSome) : Show.ofImage w.image = some w := by
  have values := readMany_flatMap (item := read4) (bytes := fun id => byte4 (w.params.value id)) (value := w.params.value)
    (l := paramIds) fun id hid => reads_word (paramOk_lt (params id (mem_paramIds.mp hid).1 (mem_paramIds.mp hid).2))
  have outs := readMany_bytes (item := readOutput) (bytes := Output.bytes) (l := w.patch.entries) fun o ho => by
    obtain ⟨i, rfl⟩ := Table.mem_entries.mp ho
    exact reads_output (patch i).1 (patch i).2
  have tables := readMany_bytes (item := readCurve) (bytes := curveBytes) (l := w.curves.entries) fun c hc => by
    obtain ⟨i, rfl⟩ := Table.mem_entries.mp hc
    exact reads_curve (curves.2 i)
  obtain ⟨count, _, _, each⟩ := id cues
  have list := readMany_bytes (item := readCue) (bytes := Cue.bytes) (l := w.cues) fun q hq => by
    obtain ⟨lo, hi, follow, nonempty, order, ranges⟩ := each q hq
    exact reads_cue lo hi follow nonempty order ranges
  have slots := readMany_bytes (item := readSlot) (bytes := slotBytes) (l := w.arms.entries) fun d hd => by
    obtain ⟨i, rfl⟩ := Table.mem_entries.mp hd
    exact reads_slot (arms i)
  have number := reads_byte (n := w.cues.length) (by omega)
  have end_ := slots []
  rw [show paramIds.length = 23 from rfl] at values
  rw [Table.length_entries] at outs tables end_
  rw [List.append_nil] at end_
  unfold Show.image Show.ofImage
  simp only [List.append_assoc]
  rw [values]
  dsimp only
  rw [paramsFrom_self params, outs]
  dsimp only
  rw [tables]
  dsimp only
  rw [number]
  dsimp only
  rw [if_neg (by omega), list]
  dsimp only
  rw [end_]
  dsimp only
  rw [tableOf_entries, tableOf_entries, tableOf_entries]
  exact if_pos (withinLimits_of_laws curves cues defined)

/-! ## The length of the image -/

theorem length_curveBytes (c : Option (List Point)) : (curveBytes c).length = 1 + 4 * pointCount c := by
  cases c with
  | none => rfl
  | some pts =>
    have points := length_flatMap_const (f := Point.bytes) (k := 4) (fun _ => rfl) pts
    simp only [curveBytes, pointCount, List.length_append, points]
    simp [byte1]

theorem length_cueBytes (q : Cue) : q.bytes.length = 7 + 10 * q.actions.length := by
  have actions := length_flatMap_const (f := Action.bytes) (k := 10) (fun _ => rfl) q.actions
  have follow : (opt4 q.follow).length = 4 := by cases q.follow <;> rfl
  simp only [Cue.bytes, List.length_append, actions, follow]
  simp [byte1, byte2]

theorem length_slotBytes (d : Option ArmDef) : (slotBytes d).length = 18 := by
  cases d with
  | none => rfl
  | some d => simp [slotBytes, armBytes, byte1, d.condition.length_bytes, d.action.length_bytes]

theorem sum_affine {α : Type} (a b : Nat) (weight : α → Nat) (l : List α) :
    (l.map fun x => a + b * weight x).sum = a * l.length + b * (l.map weight).sum := by
  induction l with
  | nil => simp
  | cons x l ih =>
    simp only [List.map_cons, List.sum_cons, List.length_cons, ih]
    ring

/-- The length of the image: the fixed parts, and 4 bytes a point, 7 a cue and 10 an action (R211). -/
theorem Show.length_image (w : Show) :
    w.image.length = 492 + 4 * w.pointsUsed + (7 * w.cues.length + 10 * w.actionsUsed) := by
  have values := length_flatMap_const (f := fun id => byte4 (w.params.value id)) (k := 4) (fun _ => rfl) paramIds
  have outs := length_flatMap_const (f := Output.bytes) (k := 6) (fun _ => rfl) w.patch.entries
  have slots := length_flatMap_const length_slotBytes w.arms.entries
  have curves : (w.curves.entries.flatMap curveBytes).length = 15 + 4 * w.pointsUsed := by
    rw [List.length_flatMap, List.map_congr_left fun c _ => length_curveBytes c, sum_affine, Show.pointsUsed_eq,
      Table.length_entries]
  have cues : (w.cues.flatMap Cue.bytes).length = 7 * w.cues.length + 10 * w.actionsUsed := by
    rw [List.length_flatMap, List.map_congr_left fun q _ => length_cueBytes q, sum_affine, Show.actionsUsed]
  rw [Table.length_entries] at outs slots
  rw [show paramIds.length = 23 from rfl] at values
  simp only [Show.image, List.length_append, values, outs, curves, cues, slots]
  simp [byte1]
  omega

theorem length_bankBytes (g : Nat) (image : List Byte) : (bankBytes g image).length = 14 + image.length := by
  simp [bankBytes, bankHeader, byte4, byte2]
  omega

/-- Settles O43: each section of the image reads back, and the limits of the pools keep the image within a bank. -/
theorem storedShowReadsBack : Obligations.StoredShowReadsBack := by
  intro w g _ high params patch curves cues arms defined
  have length := w.length_image
  have points := curves.1
  obtain ⟨count, actions, _⟩ := id cues
  refine ⟨?_, checkBank_bankBytes g w.image w (by omega) (by omega) (by omega)
    (Show.ofImage_image params patch curves cues arms defined)⟩
  rw [length_bankBytes]
  omega

end Sys2Proof.Machine
end

section
/-! SUPPORT. What ends during an operation: the reports it offers, the live entries and batch records that go with them, and
the cut flags of the entries that are left. -/

namespace Sys2Proof.Machine

/-! ## What an operation of playback changes -/

theorem Played.only {s t : State} (h : Played s t) : OnlyPlayback s t := by
  obtain ⟨phase, pins, clock, working, editor, inputs, comp, pwm, chain, line, mem, pending, free, memory, fired, _, _⟩ := h
  obtain ⟨_, _, _, _, _, _, _, ⟨_, _, _⟩, _, _, _, _, _, _, _, _, _⟩ := t
  unfold OnlyPlayback
  simp_all

/-! ## Offers -/

/-- The CUE_DONEs among the offers, as the arm monitor takes them (R106). -/
def arrivalsOf (l : List Report) : List Arrival := l.filterMap fun d => match d with
  | .cueDone n _ => some ⟨n, false⟩
  | _ => none

theorem offers_iff {l : List Report} {s t : State} : Offers l s t ↔
    t.report = l.foldl (fun u d => u.offer s.working.params.reportEnable s.now d) s.report
      ∧ t.arm.inbox = s.arm.inbox ++ arrivalsOf l := Iff.rfl

theorem arrivalsOf_append (l k : List Report) : arrivalsOf (l ++ k) = arrivalsOf l ++ arrivalsOf k := List.filterMap_append

theorem Offers.nil {s t : State} (report : t.report = s.report) (inbox : t.arm.inbox = s.arm.inbox) : Offers [] s t :=
  ⟨report, by simp [inbox]⟩

theorem Offers.append {l k : List Report} {s t u : State} (h : Offers l s t) (g : Offers k t u) (now : t.now = s.now)
    (working : t.working = s.working) : Offers (l ++ k) s u := by
  obtain ⟨report, inbox⟩ := offers_iff.mp h
  obtain ⟨report', inbox'⟩ := offers_iff.mp g
  rw [now, working, report] at report'
  refine offers_iff.mpr ⟨by rw [report', List.foldl_append], ?_⟩
  rw [inbox', inbox, List.append_assoc, arrivalsOf_append]

theorem Offers.congr {l : List Report} {s t s' t' : State} (h : Offers l s t) (report : s'.report = s.report)
    (inbox : s'.arm.inbox = s.arm.inbox) (now : s'.now = s.now) (working : s'.working = s.working)
    (report' : t'.report = t.report) (inbox' : t'.arm.inbox = t.arm.inbox) : Offers l s' t' := by
  unfold Offers
  rw [report, inbox, now, working, report', inbox']
  exact h

theorem offer_offers {d : Report} (other : ∀ n how, d ≠ .cueDone n how) (s : State) : Offers [d] s (offer d s) := by
  refine offers_iff.mpr ⟨rfl, ?_⟩
  cases d with
  | cueDone n how => exact absurd rfl (other n how)
  | _ => simp [arrivalsOf]

theorem offerCueDone_offers (n : Nat) (how : How) (s : State) : Offers [.cueDone n how] s (offerCueDone n how s) :=
  offers_iff.mpr ⟨rfl, rfl⟩

/-! ## What ends -/

/-- The cue of a CUE_DONE. -/
def Report.doneCue : Report → Option Nat
  | .cueDone n _ => some n
  | _ => none

/-- The tag of a DIRECT_DONE. -/
def Report.doneTag : Report → Option Nat
  | .directDone g _ => some g
  | _ => none

/-- From `s` to `t` exactly these cues and tags ended, each reported once as it stood in `s`, and no entry or batch record
went without a report or came; `cut` says whether items were cut or completed. -/
structure Ends (hold : Hold) (cut : Bool) (l : List Report) (s t : State) : Prop where
  now : t.now = s.now
  working : t.working = s.working
  offers : Offers l s t
  live : t.player.live.map (·.cue) = (s.player.live.map (·.cue)).filter fun n => decide (n ∉ l.filterMap Report.doneCue)
  tags : t.fade.tags.map (·.tag) = (s.fade.tags.map (·.tag)).filter fun g => decide (g ∉ l.filterMap Report.doneTag)
  reports : ∀ d ∈ l, (∃ e ∈ s.player.live, hold.cue ≠ some e.cue ∧ d = .cueDone e.cue (howOf (e.cut || cut)))
    ∨ ∃ b ∈ s.fade.tags, hold.tag ≠ some b.tag ∧ d = .directDone b.tag (howOf (b.cut || cut))
  once : l.Nodup
  liveCut : ∀ e ∈ t.player.live, ∃ x ∈ s.player.live, x.cue = e.cue ∧ (x.cut || cut) = (e.cut || cut)
  tagCut : ∀ b ∈ t.fade.tags, ∃ x ∈ s.fade.tags, x.tag = b.tag ∧ (x.cut || cut) = (b.cut || cut)

/-- What ended from `s` to `t` has been reported. -/
def Ended (hold : Hold) (cut : Bool) (s t : State) : Prop := ∃ l, Ends hold cut l s t

section
variable {hold : Hold} {cut : Bool} {l k : List Report} {s t u : State}

/-- Nothing ends where entries, batch records and reports stand. -/
theorem Ends.same (now : t.now = s.now) (working : t.working = s.working) (report : t.report = s.report)
    (inbox : t.arm.inbox = s.arm.inbox) (live : t.player.live = s.player.live) (tags : t.fade.tags = s.fade.tags) :
    Ends hold cut [] s t where
  now := now
  working := working
  offers := .nil report inbox
  live := by simp [live]
  tags := by simp [tags]
  reports := fun d hd => by cases hd
  once := .nil
  liveCut := fun e he => ⟨e, live ▸ he, rfl, rfl⟩
  tagCut := fun b hb => ⟨b, tags ▸ hb, rfl, rfl⟩

theorem Ends.mem_live (h : Ends hold cut l s t) {n : Nat} :
    (∃ e ∈ t.player.live, e.cue = n) ↔ (∃ e ∈ s.player.live, e.cue = n) ∧ ∀ how, .cueDone n how ∉ l := by
  have key : n ∈ t.player.live.map (·.cue) ↔ n ∈ s.player.live.map (·.cue) ∧ n ∉ l.filterMap Report.doneCue := by
    rw [h.live]
    simp
  have done : n ∈ l.filterMap Report.doneCue ↔ ∃ how, .cueDone n how ∈ l := by
    rw [List.mem_filterMap]
    constructor
    · rintro ⟨d, hd, eq⟩
      cases d <;> cases eq
      exact ⟨_, hd⟩
    · rintro ⟨how, hd⟩
      exact ⟨_, hd, rfl⟩
  rw [done, not_exists] at key
  simpa only [List.mem_map] using key

theorem Ends.mem_tags (h : Ends hold cut l s t) {g : Nat} :
    (∃ b ∈ t.fade.tags, b.tag = g) ↔ (∃ b ∈ s.fade.tags, b.tag = g) ∧ ∀ how, .directDone g how ∉ l := by
  have key : g ∈ t.fade.tags.map (·.tag) ↔ g ∈ s.fade.tags.map (·.tag) ∧ g ∉ l.filterMap Report.doneTag := by
    rw [h.tags]
    simp
  have done : g ∈ l.filterMap Report.doneTag ↔ ∃ how, .directDone g how ∈ l := by
    rw [List.mem_filterMap]
    constructor
    · rintro ⟨d, hd, eq⟩
      cases d <;> cases eq
      exact ⟨_, hd⟩
    · rintro ⟨how, hd⟩
      exact ⟨_, hd, rfl⟩
  rw [done, not_exists] at key
  simpa only [List.mem_map] using key

theorem filter_notMem_append {α : Type} [DecidableEq α] (l a b : List α) :
    (l.filter fun n => decide (n ∉ a)).filter (fun n => decide (n ∉ b)) = l.filter fun n => decide (n ∉ a ++ b) := by
  rw [List.filter_filter]
  refine List.filter_congr fun n _ => ?_
  by_cases ha : n ∈ a <;> by_cases hb : n ∈ b <;> simp [ha, hb]

theorem Ends.trans (h : Ends hold cut l s t) (g : Ends hold cut k t u) : Ends hold cut (l ++ k) s u where
  now := g.now.trans h.now
  working := g.working.trans h.working
  offers := h.offers.append g.offers h.now h.working
  live := by rw [g.live, h.live, filter_notMem_append, List.filterMap_append]
  tags := by rw [g.tags, h.tags, filter_notMem_append, List.filterMap_append]
  reports := fun d hd => by
    rcases List.mem_append.mp hd with hd | hd
    · exact h.reports d hd
    · rcases g.reports d hd with ⟨e, he, free, eq⟩ | ⟨b, hb, free, eq⟩
      · obtain ⟨x, hx, same, flag⟩ := h.liveCut e he
        exact .inl ⟨x, hx, by rwa [same], by rw [eq, same, flag]⟩
      · obtain ⟨x, hx, same, flag⟩ := h.tagCut b hb
        exact .inr ⟨x, hx, by rwa [same], by rw [eq, same, flag]⟩
  once := by
    refine List.nodup_append.mpr ⟨h.once, g.once, fun a ha b hb => ?_⟩
    rintro rfl
    rcases g.reports a hb with ⟨e, he, _, rfl⟩ | ⟨e, he, _, rfl⟩
    · exact (h.mem_live.mp ⟨e, he, rfl⟩).2 _ ha
    · exact (h.mem_tags.mp ⟨e, he, rfl⟩).2 _ ha
  liveCut := fun e he => by
    obtain ⟨x, hx, same, flag⟩ := g.liveCut e he
    obtain ⟨y, hy, same', flag'⟩ := h.liveCut x hx
    exact ⟨y, hy, same'.trans same, flag'.trans flag⟩
  tagCut := fun b hb => by
    obtain ⟨x, hx, same, flag⟩ := g.tagCut b hb
    obtain ⟨y, hy, same', flag'⟩ := h.tagCut x hx
    exact ⟨y, hy, same'.trans same, flag'.trans flag⟩

theorem Ended.trans (h : Ended hold cut s t) (g : Ended hold cut t u) : Ended hold cut s u := by
  obtain ⟨l, hl⟩ := h
  obtain ⟨k, hk⟩ := g
  exact ⟨l ++ k, hl.trans hk⟩

theorem Ended.refl (s : State) : Ended hold cut s s := ⟨[], .same rfl rfl rfl rfl rfl rfl⟩

theorem Ended.foldl {β : Type} (f : State → β → State) (h : ∀ s b, Ended hold cut s (f s b)) (l : List β) (s : State) :
    Ended hold cut s (l.foldl f s) := by
  induction l generalizing s with
  | nil => exact .refl s
  | cons b rest ih => exact (h s b).trans (ih _)

theorem Ended.foldlPair {β γ : Type} (f : State × γ → β → State × γ) (h : ∀ a b, Ended hold cut a.1 (f a b).1) (l : List β)
    (a : State × γ) : Ended hold cut a.1 (l.foldl f a).1 := by
  induction l generalizing a with
  | nil => exact .refl a.1
  | cons b rest ih => exact (h a b).trans (ih _)

/-- What ends by being cut is reported CUT. -/
theorem Ends.cuts (h : Ends hold true l s t) : EndsReported hold allCut l s t := by
  have cutHow : ∀ b : Bool, howOf (b || true) = .cut := by simp [howOf]
  refine ⟨h.once, fun d hd => ?_, fun n w => ⟨fun mem => ?_, fun ⟨free, ⟨e, he, eq, how⟩, gone⟩ => ?_⟩,
    fun g w => ⟨fun mem => ?_, fun ⟨free, ⟨b, hb, eq, how⟩, gone⟩ => ?_⟩⟩
  · rcases h.reports d hd with ⟨e, _, _, rfl⟩ | ⟨b, _, _, rfl⟩
    · exact .inl ⟨_, _, rfl⟩
    · exact .inr ⟨_, _, rfl⟩
  · rcases h.reports _ mem with ⟨e, he, free, eq⟩ | ⟨b, _, _, eq⟩
    · obtain ⟨rfl, rfl⟩ := Report.cueDone.inj eq
      exact ⟨free, ⟨e, he, rfl, cutHow _⟩, fun x hx same => (h.mem_live.mp ⟨x, hx, same⟩).2 _ mem⟩
    · cases eq
  · by_contra absent
    have stays := h.mem_live (n := n).mpr ⟨⟨e, he, eq⟩, fun how' mem => ?_⟩
    · obtain ⟨x, hx, same⟩ := stays
      exact gone x hx same
    · rcases h.reports _ mem with ⟨x, _, _, eq'⟩ | ⟨x, _, _, eq'⟩
      · obtain ⟨_, rfl⟩ := Report.cueDone.inj eq'
        rw [cutHow] at mem
        rw [how] at absent
        exact absent mem
      · cases eq'
  · rcases h.reports _ mem with ⟨e, _, _, eq⟩ | ⟨b, hb, free, eq⟩
    · cases eq
    · obtain ⟨rfl, rfl⟩ := Report.directDone.inj eq
      exact ⟨free, ⟨b, hb, rfl, cutHow _⟩, fun x hx same => (h.mem_tags.mp ⟨x, hx, same⟩).2 _ mem⟩
  · by_contra absent
    have stays := h.mem_tags (g := g).mpr ⟨⟨b, hb, eq⟩, fun how' mem => ?_⟩
    · obtain ⟨x, hx, same⟩ := stays
      exact gone x hx same
    · rcases h.reports _ mem with ⟨x, _, _, eq'⟩ | ⟨x, _, _, eq'⟩
      · cases eq'
      · obtain ⟨_, rfl⟩ := Report.directDone.inj eq'
        rw [cutHow] at mem
        rw [how] at absent
        exact absent mem

/-- What completes is reported by its cut flag, where no cue has two entries and no tag two records. -/
theorem Ends.completions (h : Ends hold false l s t) (cues : (s.player.live.map (·.cue)).Nodup)
    (tags : (s.fade.tags.map (·.tag)).Nodup) : EndsReported hold byFlag l s t := by
  have how : ∀ b : Bool, howOf (b || false) = byFlag b := by simp [howOf]
  refine ⟨h.once, fun d hd => ?_, fun n w => ⟨fun mem => ?_, fun ⟨free, ⟨e, he, eq, hw⟩, gone⟩ => ?_⟩,
    fun g w => ⟨fun mem => ?_, fun ⟨free, ⟨b, hb, eq, hw⟩, gone⟩ => ?_⟩⟩
  · rcases h.reports d hd with ⟨e, _, _, rfl⟩ | ⟨b, _, _, rfl⟩
    · exact .inl ⟨_, _, rfl⟩
    · exact .inr ⟨_, _, rfl⟩
  · rcases h.reports _ mem with ⟨e, he, free, eq⟩ | ⟨b, _, _, eq⟩
    · obtain ⟨rfl, rfl⟩ := Report.cueDone.inj eq
      exact ⟨free, ⟨e, he, rfl, how _⟩, fun x hx same => (h.mem_live.mp ⟨x, hx, same⟩).2 _ mem⟩
    · cases eq
  · by_contra absent
    have stays := h.mem_live (n := n).mpr ⟨⟨e, he, eq⟩, fun how' mem => ?_⟩
    · obtain ⟨x, hx, same⟩ := stays
      exact gone x hx same
    · rcases h.reports _ mem with ⟨x, hx, _, eq'⟩ | ⟨x, _, _, eq'⟩
      · obtain ⟨same, rfl⟩ := Report.cueDone.inj eq'
        obtain rfl := List.inj_on_of_nodup_map cues he hx (eq.trans same)
        rw [how] at mem
        rw [hw] at absent
        exact absent mem
      · cases eq'
  · rcases h.reports _ mem with ⟨e, _, _, eq⟩ | ⟨b, hb, free, eq⟩
    · cases eq
    · obtain ⟨rfl, rfl⟩ := Report.directDone.inj eq
      exact ⟨free, ⟨b, hb, rfl, how _⟩, fun x hx same => (h.mem_tags.mp ⟨x, hx, same⟩).2 _ mem⟩
  · by_contra absent
    have stays := h.mem_tags (g := g).mpr ⟨⟨b, hb, eq⟩, fun how' mem => ?_⟩
    · obtain ⟨x, hx, same⟩ := stays
      exact gone x hx same
    · rcases h.reports _ mem with ⟨x, _, _, eq'⟩ | ⟨x, hx, _, eq'⟩
      · cases eq'
      · obtain ⟨same, rfl⟩ := Report.directDone.inj eq'
        obtain rfl := List.inj_on_of_nodup_map tags hb hx (eq.trans same)
        rw [how] at mem
        rw [hw] at absent
        exact absent mem

/-- What ended may be judged in other states with the same entries and batch records, those held apart. -/
theorem EndsReported.congr {how : Bool → How} {s' t' : State} (h : EndsReported hold how l s t)
    (live : s'.player.live = s.player.live) (tags : ∀ b, hold.tag ≠ some b.tag → (b ∈ s'.fade.tags ↔ b ∈ s.fade.tags))
    (live' : ∀ e, hold.cue ≠ some e.cue → (e ∈ t'.player.live ↔ e ∈ t.player.live))
    (tags' : ∀ b, hold.tag ≠ some b.tag → (b ∈ t'.fade.tags ↔ b ∈ t.fade.tags)) :
    EndsReported hold how l s' t' := by
  obtain ⟨once, kinds, cues, batches⟩ := h
  refine ⟨once, kinds, fun n w => (cues n w).trans ?_, fun g w => (batches g w).trans ?_⟩
  · rw [live]
    refine and_congr_right fun free => and_congr_right fun _ => forall_congr' fun e => ?_
    by_cases same : e.cue = n
    · rw [live' e (same ▸ free)]
    · simp [same]
  · refine and_congr_right fun free => and_congr ⟨?_, ?_⟩ (forall_congr' fun b => ?_)
    · exact fun ⟨b, hb, same, eq⟩ => ⟨b, (tags b (same ▸ free)).mpr hb, same, eq⟩
    · exact fun ⟨b, hb, same, eq⟩ => ⟨b, (tags b (same ▸ free)).mp hb, same, eq⟩
    · by_cases same : b.tag = g
      · rw [tags' b (same ▸ free)]
      · simp [same]

end

/-! ## The accounting -/

theorem howOf_or_true (b : Bool) : howOf (b || true) = .cut := by simp [howOf]

/-- An item of cue `n` ends. The hold of another accounting may stand for this one's where both hold the same cue, or where
`n` is not held. -/
theorem accountCue_ended {hold hold' : Hold} {n : Nat} (cut : Bool)
    (same : hold'.cue = hold.cue ∨ hold'.cue ≠ some n) (s : State) :
    Ended hold' cut s (accountCue hold n cut s) := by
  unfold accountCue
  split
  · exact .refl s
  · next e he =>
    obtain ⟨mem, number⟩ := Player.entry_some he
    dsimp only
    split
    · next zero =>
      have free : hold'.cue ≠ some n := by
        rcases same with same | free
        · rw [same]
          exact zero.2
        · exact free
      refine ⟨[.cueDone n (howOf (e.cut || cut))], {
        now := rfl, working := rfl, tags := by simp [Report.doneTag, offerCueDone]
        offers := (offerCueDone_offers n _ _).congr rfl rfl rfl rfl rfl rfl
        live := ?_, reports := fun d hd => ?_, once := List.nodup_singleton _, liveCut := fun x hx => ?_
        tagCut := fun b hb => ⟨b, hb, rfl, rfl⟩ }⟩
      · simp only [offerCueDone_player, State.setPlayer_player, Player.dropEntry, List.filterMap_cons, Report.doneCue,
          List.filterMap_nil, List.mem_singleton, List.filter_map]
        refine congrArg (List.map _) (List.filter_congr fun x _ => ?_)
        by_cases hx : x.cue = n <;> simp [hx]
      · rw [List.mem_singleton.mp hd]
        exact .inl ⟨e, mem, by rwa [number], by rw [number]⟩
      · exact ⟨x, List.mem_of_mem_filter hx, rfl, rfl⟩
    · refine ⟨[], {
        now := rfl, working := rfl, tags := by simp, offers := .nil rfl rfl, live := ?_
        reports := fun d hd => by cases hd
        once := .nil, liveCut := fun x hx => ?_, tagCut := fun b hb => ⟨b, hb, rfl, rfl⟩ }⟩
      · simp only [State.setPlayer_player, Player.putEntry, List.map_map, List.filterMap_nil]
        simp only [List.not_mem_nil, not_false_iff, decide_true, List.filter_true]
        refine List.map_congr_left fun x _ => ?_
        by_cases hx : x.cue = n <;> simp [hx, Live.ended, number]
      · obtain ⟨y, hy, rfl⟩ := List.mem_map.mp hx
        split
        · exact ⟨e, mem, rfl, by simp [Live.ended]⟩
        · exact ⟨y, hy, rfl, rfl⟩

/-- A context of tag `g` ends. -/
theorem accountTag_ended {hold hold' : Hold} {g : Nat} (cut : Bool)
    (same : hold'.tag = hold.tag ∨ hold'.tag ≠ some g) (s : State) :
    Ended hold' cut s (accountTag hold g cut s) := by
  unfold accountTag
  split
  · exact .refl s
  · next e he =>
    obtain ⟨mem, number⟩ := FadeEngine.batch_some he
    dsimp only
    split
    · next zero =>
      have free : hold'.tag ≠ some g := by
        rcases same with same | free
        · rw [same]
          exact zero.2
        · exact free
      refine ⟨[.directDone g (howOf (e.cut || cut))], {
        now := rfl, working := rfl, live := by simp [Report.doneCue]
        offers := (offer_offers (by simp) _).congr rfl rfl rfl rfl rfl rfl
        tags := ?_, reports := fun d hd => ?_, once := List.nodup_singleton _, tagCut := fun x hx => ?_
        liveCut := fun b hb => ⟨b, hb, rfl, rfl⟩ }⟩
      · simp only [offer_fade, State.setFade_fade, FadeEngine.dropBatch, List.filterMap_cons, Report.doneTag,
          List.filterMap_nil, List.mem_singleton, List.filter_map]
        refine congrArg (List.map _) (List.filter_congr fun x _ => ?_)
        by_cases hx : x.tag = g <;> simp [hx]
      · rw [List.mem_singleton.mp hd]
        exact .inr ⟨e, mem, by rwa [number], by rw [number]⟩
      · exact ⟨x, List.mem_of_mem_filter hx, rfl, rfl⟩
    · refine ⟨[], {
        now := rfl, working := rfl, live := by simp, offers := .nil rfl rfl, tags := ?_
        reports := fun d hd => by cases hd
        once := .nil, tagCut := fun x hx => ?_, liveCut := fun b hb => ⟨b, hb, rfl, rfl⟩ }⟩
      · simp only [State.setFade_fade, FadeEngine.putBatch, List.map_map, List.filterMap_nil]
        simp only [List.not_mem_nil, not_false_iff, decide_true, List.filter_true]
        refine List.map_congr_left fun x _ => ?_
        by_cases hx : x.tag = g <;> simp [hx, number]
      · obtain ⟨y, hy, rfl⟩ := List.mem_map.mp hx
        split
        · exact ⟨e, mem, rfl, by simp⟩
        · exact ⟨y, hy, rfl, rfl⟩

/-- A context of this owner ends; the owner may be held by one hold and not by the other only if neither reports it. -/
theorem endNotice_ended {hold hold' : Hold} {o : Owner} (cut : Bool)
    (cue : ∀ n, o = .cue n → hold'.cue = hold.cue ∨ hold'.cue ≠ some n)
    (tag : ∀ g, o = .direct g → hold'.tag = hold.tag ∨ hold'.tag ≠ some g) (s : State) :
    Ended hold' cut s (endNotice hold o cut s) := by
  unfold endNotice
  split
  · exact accountCue_ended cut (cue _ rfl) s
  · split
    · exact .refl s
    · exact accountTag_ended cut (tag _ rfl) s
  · exact .refl s

theorem setChan_ended {hold : Hold} {cut : Bool} (c : Chan) (r : Channel) (s : State) : Ended hold cut s (s.setChan c r) :=
  ⟨[], .same rfl rfl rfl rfl rfl rfl⟩

theorem removeContext_ended (hold : Hold) (c : Chan) (s : State) : Ended hold true s (removeContext hold c s) := by
  unfold removeContext
  split
  · exact .refl s
  · exact (setChan_ended c _ s).trans (endNotice_ended true (fun _ _ => .inl rfl) (fun _ _ => .inl rfl) _)

theorem startRequest_ended (hold : Hold) (q : StartReq) (s : State) : Ended hold true s (startRequest hold q s).1 := by
  unfold startRequest
  split
  · exact .refl s
  · dsimp only
    split <;> exact (removeContext_ended hold q.channel s).trans (setChan_ended _ _ _)

theorem clearSched_ended {hold hold' : Hold} (same : hold'.cue = hold.cue) (set : Chan → Bool) (s : State) :
    Ended hold' true s (clearSched hold set s) :=
  (show Ended hold' true s (s.setPlayer { s.player with sched := s.player.sched.filter fun e => !set e.channel }) from
    ⟨[], .same rfl rfl rfl rfl rfl rfl⟩).trans (.foldl _ (fun s _ => accountCue_ended true (.inl same) s) _ _)

/-! ## The cut flags -/

/-- The entries of `t` have the cut flags they had in `s`, set where an item of their cue was taken away (R71); told where no
cue has two entries. -/
def Flags (took : Nat → Prop) (s t : State) : Prop :=
  (s.player.live.map (·.cue)).Nodup → ∀ e ∈ t.player.live,
    e.cut = true ↔ (∃ x ∈ s.player.live, x.cue = e.cue ∧ x.cut = true) ∨ took e.cue

section
variable {took took' : Nat → Prop} {hold : Hold} {s t u : State}

theorem Ended.nodup {cut : Bool} (h : Ended hold cut s t) (distinct : (s.player.live.map (·.cue)).Nodup) :
    (t.player.live.map (·.cue)).Nodup := by
  obtain ⟨l, hl⟩ := h
  rw [hl.live]
  exact distinct.filter _

theorem Ended.live_sublist {cut : Bool} (h : Ended hold cut s t) :
    (t.player.live.map (·.cue)).Sublist (s.player.live.map (·.cue)) := by
  obtain ⟨l, hl⟩ := h
  rw [hl.live]
  exact List.filter_sublist

theorem Flags.same (live : t.player.live = s.player.live) : Flags (fun _ => False) s t := fun distinct e he => by
  rw [live] at he
  refine ⟨fun cut => .inl ⟨e, he, rfl, cut⟩, ?_⟩
  rintro (⟨x, hx, eq, cut⟩ | absurdity)
  · rwa [← List.inj_on_of_nodup_map distinct hx he eq]
  · exact absurdity.elim

theorem Flags.trans {cut cut' : Bool} (h : Flags took s t) (k : Flags took' t u) (ended : Ended hold cut s t)
    (ended' : Ended hold cut' t u) : Flags (fun n => took n ∨ took' n) s u := fun distinct e he => by
  have mem : e.cue ∈ t.player.live.map (·.cue) := ended'.live_sublist.subset (List.mem_map_of_mem he)
  obtain ⟨x, hx, same⟩ := List.mem_map.mp mem
  have here := h distinct x hx
  rw [same] at here
  rw [k (ended.nodup distinct) e he, ← or_assoc, ← here]
  refine or_congr_left ⟨fun ⟨y, hy, eq, cut⟩ => ?_, fun cut => ⟨x, hx, same, cut⟩⟩
  rwa [← List.inj_on_of_nodup_map (ended.nodup distinct) hy hx (eq.trans same.symm)]

theorem Flags.congr (h : Flags took s t) (iff : ∀ n, took n ↔ took' n) : Flags took' s t := fun distinct e he =>
  (h distinct e he).trans (or_congr_right (iff e.cue))

theorem accountCue_flags (hold : Hold) (n : Nat) (s : State) : Flags (· = n) s (accountCue hold n true s) := by
  intro distinct x hx
  unfold accountCue at hx
  split at hx
  · next absent =>
    have other := Player.entry_none absent x hx
    refine ⟨fun cut => .inl ⟨x, hx, rfl, cut⟩, ?_⟩
    rintro (⟨y, hy, eq, cut⟩ | eq)
    · rwa [← List.inj_on_of_nodup_map distinct hy hx eq]
    · exact absurd eq other
  · next e he =>
    dsimp only at hx
    split at hx
    · have mem := List.mem_of_mem_filter hx
      have other : x.cue ≠ n := by simpa using List.of_mem_filter hx
      refine ⟨fun cut => .inl ⟨x, mem, rfl, cut⟩, ?_⟩
      rintro (⟨y, hy, eq, cut⟩ | eq)
      · rwa [← List.inj_on_of_nodup_map distinct hy mem eq]
      · exact absurd eq other
    · obtain ⟨y, hy, rfl⟩ := List.mem_map.mp hx
      dsimp only
      split
      · exact ⟨fun _ => .inr (Player.entry_some he).2, fun _ => by simp [Live.ended]⟩
      · next other =>
        refine ⟨fun cut => .inl ⟨y, hy, rfl, cut⟩, ?_⟩
        rintro (⟨z, hz, eq, cut⟩ | eq)
        · rwa [← List.inj_on_of_nodup_map distinct hz hy eq]
        · exact absurd eq (by simpa using other)

theorem clearSched_flags (hold : Hold) (set : Chan → Bool) (s : State) :
    Flags (fun n => ∃ x ∈ s.player.sched, set x.channel = true ∧ x.owner = n) s (clearSched hold set s) := by
  have fold : ∀ (l : List Sched) (u : State), Flags (fun n => ∃ x ∈ l, x.owner = n) u
      (l.foldl (fun s e => accountCue hold e.owner true s) u) := by
    intro l
    induction l with
    | nil => exact fun u => (Flags.same rfl).congr (by simp)
    | cons e rest ih =>
      intro u
      refine ((accountCue_flags hold e.owner u).trans (ih _) (accountCue_ended (hold' := hold) true (.inl rfl) u)
        (.foldl (hold := hold) (cut := true) _ (fun s e => accountCue_ended true (.inl rfl) s) _ _)).congr fun n => ?_
      simp [eq_comm]
  have first := fold (s.player.sched.filter fun e => set e.channel)
    (s.setPlayer { s.player with sched := s.player.sched.filter fun e => !set e.channel })
  refine Flags.congr (took := fun n => ∃ x ∈ s.player.sched.filter fun e => set e.channel, x.owner = n) first fun n => ?_
  simp [and_assoc]

/-- The channel holds a context of cue `n`. -/
def State.fadesFor (c : Chan) (n : Nat) (s : State) : Prop := ∃ f, (s.chan c).fade = some f ∧ f.owner = .cue n

theorem removeContext_flags (hold : Hold) (c : Chan) (s : State) :
    Flags (fun n => s.fadesFor c n) s (removeContext hold c s) := by
  unfold removeContext
  split
  · next none_ =>
    exact (Flags.same rfl).congr fun n => by simp [State.fadesFor, none_]
  · next f some_ =>
    have owner : ∀ n, s.fadesFor c n ↔ f.owner = .cue n := fun n => by simp [State.fadesFor, some_]
    unfold endNotice
    split
    · next n eq =>
      have first := accountCue_flags hold n (s.setChan c { s.chan c with fade := none })
      exact Flags.congr (took := (· = n)) first fun m => by rw [owner, eq]; simp [eq_comm]
    · next g eq =>
      refine Flags.congr (took := fun _ => False) (Flags.same ?_) fun m => by rw [owner, eq]; simp
      split
      · rfl
      · simp
    · next eq => exact Flags.congr (took := fun _ => False) (Flags.same rfl) fun m => by rw [owner, eq]; simp

theorem startRequest_flags (hold : Hold) (q : StartReq) (s : State) :
    Flags (fun n => (s.chan q.channel).park = none ∧ s.fadesFor q.channel n) s (startRequest hold q s).1 := by
  unfold startRequest
  split
  · next parked =>
    exact (Flags.same rfl).congr fun n => by
      simp only [Channel.isParked, Option.isSome_iff_ne_none] at parked
      simp [parked]
  · next free =>
    have park : (s.chan q.channel).park = none := by simpa [Channel.isParked] using free
    have removed := (removeContext_flags hold q.channel s).congr
      (took' := fun n => (s.chan q.channel).park = none ∧ s.fadesFor q.channel n) fun n => by simp [park]
    dsimp only
    split <;> exact removed

end

end Sys2Proof.Machine
end

section
/-! SUPPORT. PARK and UNPARK: every channel of the mask in turn, and what ends with their fades (chapter 4). -/

namespace Sys2Proof.Machine

/-! ## Folds over channels -/

/-- What each step keeps to the step before it, the fold keeps to its beginning. -/
theorem foldl_relates {α β : Type} {R : α → α → Prop} (refl : ∀ a, R a a) (trans : ∀ {a b c}, R a b → R b c → R a c)
    {f : α → β → α} (each : ∀ a b, R a (f a b)) (l : List β) (a : α) : R a (l.foldl f a) := by
  induction l generalizing a with
  | nil => exact refl a
  | cons b rest ih => exact trans (each a b) (ih _)

/-- Steps that change one channel record each, in a fold over channels each named once: every channel named has been
changed once. -/
theorem foldl_chan {α : Type} {state : α → State} {f : α → Chan → α} {g : Chan → Channel → Channel} {P : α → Prop}
    (keep : ∀ a c, P a → P (f a c))
    (step : ∀ a c d, P a → (state (f a c)).chan d = if c = d then g d ((state a).chan d) else (state a).chan d)
    {l : List Chan} (distinct : l.Nodup) (a : α) (h : P a) (d : Chan) :
    (state (l.foldl f a)).chan d = if d ∈ l then g d ((state a).chan d) else (state a).chan d := by
  induction l generalizing a with
  | nil => simp
  | cons c rest ih =>
    obtain ⟨fresh, distinct⟩ := List.nodup_cons.mp distinct
    rw [List.foldl_cons, ih distinct _ (keep a c h), step a c d h]
    by_cases eq : c = d
    · subst eq
      simp [fresh]
    · simp [eq, Ne.symm eq]

theorem maskChannels_nodup (mask : ChanMask) : (maskChannels mask).Nodup := (List.nodup_finRange 24).filter _

theorem countP_maskChannels (mask : ChanMask) (p : Chan → Bool) :
    (maskChannels mask).countP p = (List.finRange 24).countP fun c => mask.getLsbD c.val && p c := by
  rw [maskChannels, channels, List.countP_filter]
  exact List.countP_congr fun c _ => by rw [Bool.and_comm]; rfl

theorem isParked_eq (r : Channel) : r.isParked = decide (r.park ≠ none) := by
  rw [Channel.isParked]
  cases r.park <;> rfl

theorem not_isParked_eq (r : Channel) : (!r.isParked) = decide (r.park = none) := by
  rw [Channel.isParked]
  cases r.park <;> rfl

theorem fade_isSome_eq (r : Channel) : r.fade.isSome = decide (r.fade ≠ none) := by
  cases r.fade <;> rfl

/-! ## PARK -/

theorem parkChannel_chan (level : Nat) (s : State) (c d : Chan) :
    (parkChannel level s c).chan d = if c = d then ⟨level, some level, none, .park⟩ else s.chan d := by
  unfold parkChannel
  dsimp only
  rw [State.setChan_chan, removeContext_chan, removeContext_chan]
  split <;> simp_all

theorem parkNow_chan (mask : ChanMask) (level : Nat) (s : State) (c : Chan) :
    (parkNow mask level s).chan c = if inMask mask c then ⟨level, some level, none, .park⟩ else s.chan c := by
  have fold := foldl_chan (state := id) (P := fun _ => True) (g := fun _ _ => ⟨level, some level, none, .park⟩)
    (fun _ _ _ => trivial) (fun s c d _ => parkChannel_chan level s c d) (maskChannels_nodup mask)
    (clearSched .none (inMask mask) s) trivial c
  refine fold.trans ?_
  simp only [mem_maskChannels, id, clearSched_chan]

theorem parkNow_player (mask : ChanMask) (level : Nat) (s : State) :
    (parkNow mask level s).player.sched = s.player.sched.filter (fun e => !inMask mask e.channel)
      ∧ (parkNow mask level s).player.position = s.player.position
      ∧ (parkNow mask level s).player.follow = s.player.follow := by
  have cleared := clearSched_runs .none (inMask mask) s
  have each : ∀ (s : State) c, s.player.Accounted (parkChannel level s c).player := fun s c => removeContext_accounted .none c s
  have parked : (clearSched .none (inMask mask) s).player.Accounted (parkNow mask level s).player :=
    foldl_relates (R := fun a b : State => a.player.Accounted b.player) (fun a => .refl a.player) .trans each _ _
  exact ⟨by rw [parked.sched, clearSched_sched], parked.position.trans cleared.position,
    parked.follow.trans cleared.follow⟩

theorem parkNow_master (mask : ChanMask) (level : Nat) (s : State) : MasterKept s (parkNow mask level s) :=
  (clearSched_master _ _ s).trans
    (.foldl _ (fun _ _ => (removeContext_master _ _ _).trans (setChan_master _ _ _)) (maskChannels mask) _)

theorem parkNow_ended (mask : ChanMask) (level : Nat) (s : State) : Ended .none true s (parkNow mask level s) :=
  (clearSched_ended rfl _ s).trans
    (.foldl _ (fun _ _ => (removeContext_ended _ _ _).trans (setChan_ended _ _ _)) (maskChannels mask) _)

section
variable {mask : ChanMask} {level : Half} {s : State}

theorem parkOp_bad (bad : mask = 0 ∨ 4095 < level.toNat) : parkOp mask level s = refuse .badValue s := if_pos bad

theorem parkOp_good (some_ : mask ≠ 0) (range : level.toNat ≤ 4095) :
    parkOp mask level s = (parkNow mask level.toNat s, ⟨.done,
      byte1 ((List.finRange 24).countP fun c => mask.getLsbD c.val && decide ((s.chan c).park = none))
        ++ byte1 ((List.finRange 24).countP fun c => mask.getLsbD c.val && decide ((s.chan c).park ≠ none))
        ++ byte1 ((List.finRange 24).countP fun c => mask.getLsbD c.val && decide ((s.chan c).fade ≠ none))⟩) := by
  unfold parkOp
  rw [if_neg (not_or.mpr ⟨some_, Nat.not_lt.mpr range⟩)]
  simp only [countP_maskChannels, isParked_eq, fade_isSome_eq, ne_eq, decide_not, Bool.not_not]

theorem unparkOp_good (some_ : mask ≠ 0) : unparkOp mask s = (unparkNow mask s, ⟨.done,
    byte1 ((List.finRange 24).countP fun c => mask.getLsbD c.val && decide ((s.chan c).park ≠ none))⟩) := by
  unfold unparkOp
  rw [if_neg some_]
  simp only [countP_maskChannels, isParked_eq]

end

/-- Settles O34: PARK clears the scheduled starts of its mask and then takes each channel in turn. -/
theorem parkAndUnpark : Obligations.ParkAndUnpark := by
  refine ⟨fun h mask level s takes => ?_, fun h mask s takes => ?_⟩
  · have answers {t : State} {st : Status} {data : List Byte} (run : parkOp mask level s.taken = (t, ⟨st, data⟩)) :
        Answers (.park h mask level) h 0x31 s t st data :=
      answers_new h (.park mask level) s t st data takes rfl run
    refine ⟨fun bad => answers (parkOp_bad bad), fun some_ range => ?_⟩
    obtain ⟨sched, position, follow⟩ := parkNow_player mask level.toNat s.taken
    have master := parkNow_master mask level.toNat s.taken
    obtain ⟨ended, ends⟩ := parkNow_ended mask level.toNat s.taken
    have chan := parkNow_chan mask level.toNat s.taken
    have run := parkOp_good (s := s.taken) some_ range
    simp only [taken_chan, taken_player] at sched position follow chan run
    refine ⟨parkNow mask level.toNat s.taken, answers run, fun c named => (chan c).trans (if_pos named),
      fun c other => (chan c).trans (if_neg (Bool.eq_false_iff.mp other)), sched, position, follow, ?_, ?_,
      ⟨ended, ends.cuts.congr (by rw [taken_player]) (fun b _ => by rw [taken_fade]) (fun _ _ => .rfl) fun _ _ => .rfl,
        ends.offers⟩, (parkNow_played mask level.toNat s.taken).only⟩
    · rw [master.master, taken_fade]
    · rw [master.ctx, taken_fade]
  · have answers {t : State} {st : Status} {data : List Byte} (run : unparkOp mask s.taken = (t, ⟨st, data⟩)) :
        Answers (.unpark h mask) h 0x32 s t st data :=
      answers_new h (.unpark mask) s t st data takes rfl run
    refine ⟨fun zero => answers (if_pos zero), fun some_ => ⟨(unparkNow mask s.taken).fade.chans, answers ?_, fun c named => ?_,
      fun c other => ?_⟩⟩
    · rw [unparkOp_good some_]
      simp only [taken_chan]
      refine Prod.ext ?_ rfl
      unfold unparkNow State.setFade
      rw [taken_fade]
    · exact (unparkNow_chan mask s.taken c).trans ((if_pos named).trans (by rw [taken_chan]))
    · exact (unparkNow_chan mask s.taken c).trans ((if_neg (Bool.eq_false_iff.mp other)).trans (taken_chan s c))

end Sys2Proof.Machine
end

section
/-! SUPPORT. FADE: the channels it starts or sets, the batch of its tag, and what ends with the fades it takes over
(chapter 4). -/

namespace Sys2Proof.Machine

/-! ## The channels of a FADE -/

theorem mem_unparkedOf {mask : ChanMask} {s : State} {c : Chan} :
    c ∈ s.unparkedOf mask ↔ (mask.getLsbD c.val && decide ((s.chan c).park = none)) = true := by
  rw [State.unparkedOf, List.mem_filter, mem_maskChannels, not_isParked_eq, Bool.and_eq_true]
  rfl

theorem unparkedOf_nodup (mask : ChanMask) (s : State) : (s.unparkedOf mask).Nodup := (maskChannels_nodup mask).filter _

theorem length_unparkedOf (mask : ChanMask) (s : State) : (s.unparkedOf mask).length
    = (List.finRange 24).countP fun c => mask.getLsbD c.val && decide ((s.chan c).park = none) := by
  rw [State.unparkedOf, ← List.countP_eq_length_filter, countP_maskChannels]
  simp only [not_isParked_eq]

theorem length_parkedOf (mask : ChanMask) (s : State) : (maskChannels mask).length - (s.unparkedOf mask).length
    = (List.finRange 24).countP fun c => mask.getLsbD c.val && decide ((s.chan c).park ≠ none) := by
  have both := List.length_eq_countP_add_countP (fun c => (s.chan c).isParked) (l := maskChannels mask)
  have free : (s.unparkedOf mask).length = (maskChannels mask).countP fun c => decide ¬ (s.chan c).isParked = true := by
    rw [State.unparkedOf, ← List.countP_eq_length_filter]
    exact List.countP_congr fun c _ => by simp
  have parked := countP_maskChannels mask fun c => (s.chan c).isParked
  simp only [isParked_eq] at parked
  simp only [isParked_eq] at both free
  omega

section
variable {target time curve tag : Nat}

theorem fadeChannel_counts (acc : State × FadeCounts) (c : Chan) (free : (acc.1.chan c).park = none) :
    (fadeChannel target time curve tag acc c).2 = if time = 0 then { acc.2 with sets := acc.2.sets + 1 }
      else { acc.2 with created := acc.2.created + 1 } := by
  have result := startRequest_result ⟨none, some tag⟩ ⟨c, target, time, curve, .direct tag⟩ acc.1
  have unparked : (acc.1.chan c).isParked = false := by rw [isParked_eq, free]; rfl
  simp only [unparked, Bool.false_eq_true, if_false] at result
  unfold fadeChannel
  split <;> (next eq => rw [eq] at result; dsimp only at result ⊢; split at result <;> simp_all)

theorem fadeChannel_chan (acc : State × FadeCounts) (c d : Chan) :
    (fadeChannel target time curve tag acc c).1.chan d
      = if c = d then (acc.1.chan d).started acc.1.now ⟨d, target, time, curve, .direct tag⟩ else acc.1.chan d := by
  rw [fadeChannel_state, startRequest_chan]
  split
  · next eq =>
    dsimp only at eq
    rw [eq]
  · rfl

theorem fadeChannel_park (acc : State × FadeCounts) (c d : Chan) :
    ((fadeChannel target time curve tag acc c).1.chan d).park = (acc.1.chan d).park := by
  rw [fadeChannel_chan]
  split
  · exact Channel.started_park _ _ _
  · rfl

theorem fadeChannels_counts (l : List Chan) (acc : State × FadeCounts) (free : ∀ c ∈ l, (acc.1.chan c).park = none) :
    (l.foldl (fadeChannel target time curve tag) acc).2 = if time = 0 then { acc.2 with sets := acc.2.sets + l.length }
      else { acc.2 with created := acc.2.created + l.length } := by
  induction l generalizing acc with
  | nil => split <;> rfl
  | cons c rest ih =>
    rw [List.foldl_cons, ih _ fun d hd => by rw [fadeChannel_park]; exact free d (List.mem_cons_of_mem c hd),
      fadeChannel_counts acc c (free c List.mem_cons_self)]
    split <;> simp only [List.length_cons] <;> congr 1 <;> omega

theorem fadeChannels_chan {l : List Chan} (distinct : l.Nodup) (acc : State × FadeCounts) (d : Chan) :
    (l.foldl (fadeChannel target time curve tag) acc).1.chan d
      = if d ∈ l then (acc.1.chan d).started acc.1.now ⟨d, target, time, curve, .direct tag⟩ else acc.1.chan d :=
  foldl_chan (state := Prod.fst) (P := fun a => a.1.now = acc.1.now)
    (g := fun d r => r.started acc.1.now ⟨d, target, time, curve, .direct tag⟩)
    (fun a c h => (fadeChannel_played target time curve tag a c).now.trans h)
    (fun a c d h => by rw [fadeChannel_chan, h]) distinct acc rfl d

end

/-! ## The batch of a held tag -/

theorem accountTag_batch {hold : Hold} {g : Nat} (held : hold.tag = some g) (t : Nat) (s : State) :
    ((accountTag hold t true s).fade.batch g).map (·.cut) = (s.fade.batch g).map fun b => b.cut || decide (t = g) := by
  unfold accountTag
  split
  · next absent =>
    by_cases eq : t = g
    · rw [← eq, absent]
      rfl
    · simp [eq]
  · next b hb =>
    have tag := (FadeEngine.batch_some hb).2
    dsimp only
    split
    · next last =>
      have other : t ≠ g := fun eq => last.2 (by rw [held, eq])
      simp only [offer_fade, State.setFade_fade, FadeEngine.batch, FadeEngine.dropBatch, List.find?_filter]
      have same : (fun x : Batch => decide ((x.tag != t) = true ∧ (x.tag == g) = true)) = fun x => x.tag == g := by
        funext x
        by_cases hx : x.tag = g
        · simp [hx, Ne.symm other]
        · simp [hx]
      simp only [same, other, decide_false, Bool.or_false]
    · simp only [State.setFade_fade, FadeEngine.batch, FadeEngine.putBatch, List.find?_map, Option.map_map]
      have same : ((fun x : Batch => x.tag == g) ∘ fun x => if x.tag == t then
          { b with count := b.count - 1, cut := b.cut || true } else x) = fun x => x.tag == g := by
        funext x
        simp only [Function.comp]
        by_cases hx : x.tag = t
        · simp [hx, tag]
        · simp [hx]
      rw [same]
      by_cases eq : t = g
      · subst eq
        have here : s.fade.tags.find? (fun x => x.tag == t) = some b := hb
        simp [here, tag]
      · refine Option.map_congr fun x hx => ?_
        have xg : x.tag = g := by simpa using List.find?_some hx
        simp [xg, Ne.symm eq, eq]

theorem endNotice_batch {hold : Hold} {g : Nat} (held : hold.tag = some g) (named : g ≠ 0) (o : Owner) (s : State) :
    ((endNotice hold o true s).fade.batch g).map (·.cut)
      = (s.fade.batch g).map fun b => b.cut || decide (o = .direct g) := by
  unfold endNotice
  split
  · rw [accountCue_fade]
    simp
  · next t =>
    split
    · next zero =>
      have other : t ≠ g := fun eq => named (eq ▸ zero)
      simp [other]
    · rw [accountTag_batch held]
      simp
  · simp

theorem removeContext_batch {hold : Hold} {g : Nat} (held : hold.tag = some g) (named : g ≠ 0) (c : Chan) (s : State) :
    ((removeContext hold c s).fade.batch g).map (·.cut)
      = (s.fade.batch g).map fun b => b.cut || (s.chan c).holds (.direct g) := by
  unfold removeContext
  split
  · next absent => simp [Channel.holds_none absent]
  · next f present =>
    rw [endNotice_batch held named, Channel.holds_some present, beq_eq_decide]
    rfl

theorem fadeChannel_batch {target time curve g : Nat} (named : g ≠ 0) (acc : State × FadeCounts) (c : Chan)
    (free : (acc.1.chan c).park = none) :
    ((fadeChannel target time curve g acc c).1.fade.batch g).map (·.cut)
      = (acc.1.fade.batch g).map fun b => b.cut || (acc.1.chan c).holds (.direct g) := by
  rw [fadeChannel_state, ← removeContext_batch (hold := ⟨none, some g⟩) rfl named c acc.1]
  unfold startRequest
  rw [if_neg (by rw [isParked_eq, free]; simp)]
  dsimp only
  split <;> rfl

/-- A FADE cuts the batch of its tag if it takes over a context of that tag (R90). -/
theorem fadeChannels_batch {target time curve g : Nat} (named : g ≠ 0) {l : List Chan} (distinct : l.Nodup)
    (acc : State × FadeCounts) (free : ∀ c ∈ l, (acc.1.chan c).park = none) :
    ((l.foldl (fadeChannel target time curve g) acc).1.fade.batch g).map (·.cut)
      = (acc.1.fade.batch g).map fun b => b.cut || l.any fun c => (acc.1.chan c).holds (.direct g) := by
  induction l generalizing acc with
  | nil => simp
  | cons c rest ih =>
    obtain ⟨fresh, distinct⟩ := List.nodup_cons.mp distinct
    have here := fadeChannel_batch (target := target) (time := time) (curve := curve) named acc c
      (free c List.mem_cons_self)
    have later := ih distinct (fadeChannel target time curve g acc c) fun d hd => by
      rw [fadeChannel_park]
      exact free d (List.mem_cons_of_mem c hd)
    have stand : (rest.any fun d => ((fadeChannel target time curve g acc c).1.chan d).holds (.direct g))
        = rest.any fun d => (acc.1.chan d).holds (.direct g) := by
      refine Bool.eq_iff_iff.mpr ?_
      simp only [List.any_eq_true]
      refine exists_congr fun d => and_congr_right fun hd => ?_
      rw [fadeChannel_chan, if_neg fun eq : c = d => fresh (eq ▸ hd)]
    rw [stand] at later
    rw [List.foldl_cons, later, List.any_cons]
    have step : ∀ (x y : Option Batch) (p q : Bool), x.map (·.cut) = y.map (fun b => b.cut || p) →
        x.map (fun b => b.cut || q) = y.map fun b => b.cut || (p || q) := by
      intro x y p q eq
      cases x <;> cases y <;> simp_all [Bool.or_assoc]
    exact step _ _ _ _ here

/-! ## Opening and settling the batch -/

theorem openBatch_mem {tag : Nat} {s : State} {b : Batch} (other : b.tag ≠ tag) :
    b ∈ (openBatch tag s).fade.tags ↔ b ∈ s.fade.tags := by
  unfold openBatch
  split
  · rfl
  · simp only [State.setFade_fade, List.mem_append, List.mem_singleton, or_iff_left_iff_imp]
    rintro rfl
    exact absurd rfl other

theorem openBatch_batch {tag : Nat} (named : tag ≠ 0) (s : State) :
    (openBatch tag s).fade.batch tag = some ((s.fade.batch tag).getD ⟨tag, 0, false⟩) := by
  unfold openBatch
  cases h : s.fade.batch tag with
  | some b => simp [h]
  | none =>
    rw [if_neg (by simp [named])]
    have absent : s.fade.tags.find? (fun x => x.tag == tag) = none := h
    simp [FadeEngine.batch, absent]

theorem openBatch_frame (tag : Nat) (s : State) : (openBatch tag s).report = s.report
    ∧ (openBatch tag s).arm = s.arm ∧ (openBatch tag s).now = s.now ∧ (openBatch tag s).working = s.working := by
  unfold openBatch
  split <;> exact ⟨rfl, rfl, rfl, rfl⟩

section
variable {tag : Nat} {s : State} {b : Batch}

theorem settleBatch_zero (s : State) : settleBatch 0 s = s := if_pos rfl

theorem settleBatch_done (named : tag ≠ 0) (open_ : s.fade.batch tag = some b) (none_ : s.fade.tagged tag = 0) :
    settleBatch tag s = offer (.directDone tag (howOf b.cut)) (s.setFade (s.fade.dropBatch tag)) := by
  unfold settleBatch
  rw [if_neg named, open_]
  exact if_pos none_

theorem settleBatch_carried (named : tag ≠ 0) (open_ : s.fade.batch tag = some b) (carried : s.fade.tagged tag ≠ 0) :
    settleBatch tag s = s.setFade (s.fade.putBatch tag { b with count := s.fade.tagged tag }) := by
  unfold settleBatch
  rw [if_neg named, open_]
  exact if_neg carried

theorem settleBatch_mem (open_ : tag ≠ 0 → s.fade.batch tag = some b) {x : Batch} (other : x.tag ≠ tag) :
    x ∈ (settleBatch tag s).fade.tags ↔ x ∈ s.fade.tags := by
  by_cases named : tag = 0
  · rw [named, settleBatch_zero]
  · have here := open_ named
    by_cases none_ : s.fade.tagged tag = 0
    · rw [settleBatch_done named here none_]
      simp [FadeEngine.dropBatch, other]
    · rw [settleBatch_carried named here none_]
      simp only [State.setFade_fade, FadeEngine.putBatch, List.mem_map]
      constructor
      · rintro ⟨y, hy, rfl⟩
        split
        · next eq =>
          rw [if_pos eq] at other
          exact absurd (FadeEngine.batch_some here).2 other
        · exact hy
      · exact fun hx => ⟨x, hx, by simp [other]⟩

theorem settleBatch_isSome (named : tag ≠ 0) (open_ : s.fade.batch tag = some b) :
    ((settleBatch tag s).fade.batch tag).isSome ↔ 1 ≤ s.fade.tagged tag := by
  obtain ⟨mem, eq⟩ := FadeEngine.batch_some open_
  by_cases none_ : s.fade.tagged tag = 0
  · rw [settleBatch_done named open_ none_]
    simp [FadeEngine.batch, FadeEngine.dropBatch, none_]
  · rw [settleBatch_carried named open_ none_]
    simp only [FadeEngine.batch, State.setFade_fade, FadeEngine.putBatch, List.find?_isSome]
    exact ⟨fun _ => Nat.pos_of_ne_zero none_, fun _ => ⟨_, List.mem_map_of_mem mem, by simp [eq]⟩⟩

end

/-! ## The FADE -/

section
variable {mask : ChanMask} {target time curve tag : Nat} {s : State}

/-- The middle of a FADE: batch opened, scheduled starts cleared, the channels started or set (R87 steps 1 to 3). -/
def fadeMiddle (mask : ChanMask) (target time curve tag : Nat) (s : State) : State × FadeCounts :=
  (s.unparkedOf mask).foldl (fadeChannel target time curve tag)
    (clearSched .none (fun c => decide (c ∈ s.unparkedOf mask)) (openBatch tag s),
      ⟨0, 0, (maskChannels mask).length - (s.unparkedOf mask).length⟩)

theorem fadeNow_eq : fadeNow mask target time curve tag s = (settleBatch tag (fadeMiddle mask target time curve tag s).1,
    (fadeMiddle mask target time curve tag s).2) := rfl

theorem openBatch_chan (tag : Nat) (s : State) (c : Chan) : (openBatch tag s).chan c = s.chan c := by
  rw [State.chan, openBatch_chans, State.chan]

theorem settleBatch_chan (tag : Nat) (s : State) (c : Chan) : (settleBatch tag s).chan c = s.chan c := by
  rw [State.chan, settleBatch_chans, State.chan]

theorem unparkedOf_free {c : Chan} (h : c ∈ s.unparkedOf mask) : (s.chan c).park = none := by
  simpa using (Bool.and_eq_true_iff.mp (mem_unparkedOf.mp h)).2

theorem fadeMiddle_counts : (fadeMiddle mask target time curve tag s).2
    = ⟨if time = 0 then 0 else (s.unparkedOf mask).length, if time = 0 then (s.unparkedOf mask).length else 0,
      (maskChannels mask).length - (s.unparkedOf mask).length⟩ := by
  refine (fadeChannels_counts _ _ fun c hc => ?_).trans ?_
  · rw [clearSched_chan, openBatch_chan]
    exact unparkedOf_free hc
  · split <;> simp

theorem fadeMiddle_chan (c : Chan) : (fadeMiddle mask target time curve tag s).1.chan c
    = if c ∈ s.unparkedOf mask then (s.chan c).started s.now ⟨c, target, time, curve, .direct tag⟩ else s.chan c := by
  refine (fadeChannels_chan (unparkedOf_nodup mask s) _ c).trans ?_
  have now : (clearSched .none (fun c => decide (c ∈ s.unparkedOf mask)) (openBatch tag s)).now = s.now :=
    (clearSched_played _ _ _).now.trans (openBatch_played tag s).now
  dsimp only
  rw [now, clearSched_chan, openBatch_chan]

theorem fadeMiddle_batch (named : tag ≠ 0) : ∃ b, (fadeMiddle mask target time curve tag s).1.fade.batch tag = some b
    ∧ b.cut = (((s.fade.batch tag).getD ⟨tag, 0, false⟩).cut
      || (s.unparkedOf mask).any fun c => (s.chan c).holds (.direct tag)) := by
  have fold := fadeChannels_batch (target := target) (time := time) (curve := curve) named (unparkedOf_nodup mask s)
    (clearSched .none (fun c => decide (c ∈ s.unparkedOf mask)) (openBatch tag s),
      ⟨0, 0, (maskChannels mask).length - (s.unparkedOf mask).length⟩) fun c hc => by
        rw [clearSched_chan, openBatch_chan]
        exact unparkedOf_free hc
  simp only [clearSched_fade, openBatch_batch named, clearSched_chan, openBatch_chan, Option.map_some,
    Option.map_eq_some_iff] at fold
  exact fold

theorem fadeChannel_ended (acc : State × FadeCounts) (c : Chan) :
    Ended ⟨none, some tag⟩ true acc.1 (fadeChannel target time curve tag acc c).1 := by
  rw [fadeChannel_state]
  exact startRequest_ended _ _ _

theorem fadeMiddle_ended : Ended ⟨none, some tag⟩ true (openBatch tag s) (fadeMiddle mask target time curve tag s).1 := by
  have cleared := clearSched_ended (hold := .none) (hold' := ⟨none, some tag⟩) rfl
    (fun c => decide (c ∈ s.unparkedOf mask)) (openBatch tag s)
  exact cleared.trans (Ended.foldlPair (fadeChannel target time curve tag) fadeChannel_ended (s.unparkedOf mask)
    (_, ⟨0, 0, _⟩))

theorem fadeMiddle_player : (fadeMiddle mask target time curve tag s).1.player.sched
      = s.player.sched.filter (fun e => !decide (e.channel ∈ s.unparkedOf mask))
    ∧ (fadeMiddle mask target time curve tag s).1.player.position = s.player.position
    ∧ (fadeMiddle mask target time curve tag s).1.player.follow = s.player.follow := by
  let start := clearSched .none (fun c => decide (c ∈ s.unparkedOf mask)) (openBatch tag s)
  have cleared := clearSched_runs .none (fun c => decide (c ∈ s.unparkedOf mask)) (openBatch tag s)
  have each : ∀ (acc : State × FadeCounts) c, acc.1.player.Accounted (fadeChannel target time curve tag acc c).1.player :=
    fun acc c => by
      rw [fadeChannel_state]
      exact startRequest_accounted _ _ _
  have faded : start.player.Accounted (fadeMiddle mask target time curve tag s).1.player :=
    foldl_relates (R := fun a b : State × FadeCounts => a.1.player.Accounted b.1.player) (fun a => .refl a.1.player) .trans
      each (s.unparkedOf mask) (start, _)
  have sched := clearSched_sched .none (fun c => decide (c ∈ s.unparkedOf mask)) (openBatch tag s)
  rw [openBatch_player] at cleared sched
  exact ⟨faded.sched.trans sched, faded.position.trans cleared.position, faded.follow.trans cleared.follow⟩

theorem fadeChannel_master (acc : State × FadeCounts) (c : Chan) :
    MasterKept acc.1 (fadeChannel target time curve tag acc c).1 := by
  rw [fadeChannel_state]
  exact startRequest_master _ _ _

theorem fadeMiddle_master : MasterKept s (fadeMiddle mask target time curve tag s).1 := by
  have cleared := clearSched_master .none (fun c => decide (c ∈ s.unparkedOf mask)) (openBatch tag s)
  exact ((openBatch_master tag s).trans cleared).trans (MasterKept.foldlPair (fadeChannel target time curve tag)
    fadeChannel_master (s.unparkedOf mask) (_, ⟨0, 0, _⟩))

theorem fadeNow_master : MasterKept s (fadeNow mask target time curve tag s).1 :=
  fadeMiddle_master.trans (settleBatch_master tag _)

theorem fadeNow_tagged : (fadeNow mask target time curve tag s).1.fade.tagged tag
    = (fadeMiddle mask target time curve tag s).1.fade.tagged tag := by
  rw [FadeEngine.tagged_eq, FadeEngine.tagged_eq]
  exact FadeEngine.holding_congr _ (settleBatch_chans tag _)

/-- What a FADE reports: what it ends by takeover or removal, and last its own tag if no fade carries it (R72, R90 to
R92). -/
theorem fadeNow_reports : ∃ (ended : List Report) (how : How),
    EndsReported ⟨none, some tag⟩ allCut ended s (fadeNow mask target time curve tag s).1
      ∧ (TagLaw s → how = if ∃ b ∈ s.fade.tags, b.tag = tag then .cut else .completed)
      ∧ Offers (ended ++ if tag ≠ 0 ∧ (fadeNow mask target time curve tag s).1.fade.tagged tag = 0 then
          [.directDone tag how] else []) s (fadeNow mask target time curve tag s).1 := by
  obtain ⟨ended, ends⟩ := fadeMiddle_ended (mask := mask) (target := target) (time := time) (curve := curve) (tag := tag)
    (s := s)
  have chan := fadeMiddle_chan (mask := mask) (target := target) (time := time) (curve := curve) (tag := tag) (s := s)
  have batch := fadeMiddle_batch (mask := mask) (target := target) (time := time) (curve := curve) (tag := tag) (s := s)
  obtain ⟨report, arm, now, working⟩ := openBatch_frame tag s
  rw [fadeNow_tagged, fadeNow_eq]
  dsimp only
  generalize (fadeMiddle mask target time curve tag s).1 = m at ends chan batch
  have offered : Offers ended s m := ends.offers.congr report.symm (by rw [arm]) now.symm working.symm rfl rfl
  have judged {t : State} (live : t.player.live = m.player.live)
      (tags : ∀ b : Batch, b.tag ≠ tag → (b ∈ t.fade.tags ↔ b ∈ m.fade.tags)) :
      EndsReported ⟨none, some tag⟩ allCut ended s t :=
    ends.cuts.congr (by rw [openBatch_player]) (fun b free => (openBatch_mem fun eq => free (by rw [eq])).symm)
      (fun e _ => by rw [live]) fun b free => tags b fun eq => free (by rw [eq])
  by_cases named : tag = 0
  · subst named
    rw [settleBatch_zero]
    exact ⟨ended, _, judged rfl fun _ _ => .rfl, fun _ => rfl, by simpa using offered⟩
  obtain ⟨b, open_, cut⟩ := batch named
  have reported := judged (t := settleBatch tag m) (by rw [settleBatch_player]) fun x other =>
    settleBatch_mem (fun _ => open_) other
  by_cases none_ : m.fade.tagged tag = 0
  · refine ⟨ended, howOf b.cut, reported, fun law => ?_, ?_⟩
    · obtain ⟨_, counted, complete⟩ := law
      have empty (c : Chan) : (m.chan c).holds (.direct tag) = false := by
        rw [FadeEngine.tagged_eq] at none_
        by_contra holds
        have here : (m.chan c).holds (.direct tag) = true := by simpa using holds
        have := FadeEngine.holding_pos.mpr ⟨c, here⟩
        omega
      split
      · next present =>
        obtain ⟨x, hx, eq⟩ := present
        obtain ⟨_, one, count⟩ := counted x hx
        rw [eq] at count
        obtain ⟨c, hc⟩ := FadeEngine.holding_pos.mp (show 1 ≤ s.fade.holding (.direct tag) from by
          rw [← FadeEngine.tagged_eq]
          omega)
        have mem : c ∈ s.unparkedOf mask := by
          by_contra out
          have here := empty c
          rw [chan c, if_neg out] at here
          have : (s.chan c).holds (.direct tag) = true := hc
          rw [here] at this
          cases this
        have : b.cut = true := by
          rw [cut, List.any_eq_true.mpr ⟨c, mem, hc⟩, Bool.or_true]
        rw [this]
        rfl
      · next absent =>
        have nobatch : s.fade.batch tag = none := by
          cases hb : s.fade.batch tag with
          | none => rfl
          | some x => exact absurd ⟨x, FadeEngine.batch_some hb⟩ absent
        have untagged : ∀ c, (s.chan c).holds (.direct tag) = false := fun c => by
          by_contra holds
          have here : (s.chan c).holds (.direct tag) = true := by simpa using holds
          exact absent (complete tag named (FadeEngine.holding_pos.mpr ⟨c, here⟩))
        have : b.cut = false := by simp [cut, nobatch, untagged]
        rw [this]
        rfl
    · rw [if_pos ⟨named, none_⟩, settleBatch_done named open_ none_]
      exact offered.append ((offer_offers (by simp) _).congr rfl rfl rfl rfl rfl rfl) (ends.now.trans now)
        (ends.working.trans working)
  · refine ⟨ended, _, reported, fun _ => rfl, ?_⟩
    rw [if_neg fun both => none_ both.2, settleBatch_carried named open_ none_, List.append_nil]
    exact offered.congr rfl rfl rfl rfl rfl rfl

end

/-! ## The message -/

section
variable {mask : ChanMask} {target : Half} {time : Word} {curve tag : Byte} {s : State}

theorem unparkedOf_nil : s.unparkedOf mask = [] ↔ ∀ c : Chan, mask.getLsbD c.val = true → (s.chan c).park ≠ none := by
  rw [List.eq_nil_iff_forall_not_mem]
  refine forall_congr' fun c => ?_
  rw [mem_unparkedOf]
  simp

theorem fadeOp_refused {st : Status} (check : fadeCheck mask target.toNat time.toNat curve.toNat s = some st)
    (refusal : st ≠ .done) : fadeOp mask target time curve tag s = refuse st s := by
  unfold fadeOp fadeRequest
  rw [check]
  cases st with
  | done => exact absurd rfl refusal
  | _ => rfl

theorem fadeCheck_ok (lo : target.toNat ≤ 4095) (short : time.toNat ≤ 600000) (number : curve.toNat ≤ 15)
    (defined : (s.working.curve curve.toNat).isSome) (free : s.unparkedOf mask ≠ []) :
    fadeCheck mask target.toNat time.toNat curve.toNat s = none := by
  have some_ : mask ≠ 0 := by
    rintro rfl
    exact free (unparkedOf_nil.mpr fun c named => by simp at named)
  unfold fadeCheck
  have is_some : (s.working.curve curve.toNat).isNone = false := by simpa using defined
  rw [if_neg (by simp only [some_, false_or]; omega), is_some, if_neg Bool.false_ne_true, if_neg free]

theorem fadeOp_done (check : fadeCheck mask target.toNat time.toNat curve.toNat s = none) :
    fadeOp mask target time curve tag s = ((fadeNow mask target.toNat time.toNat curve.toNat tag.toNat s).1, ⟨.done,
      byte1 (if time = 0 then 0 else (s.unparkedOf mask).length) ++ byte1 (if time = 0 then (s.unparkedOf mask).length else 0)
        ++ byte1 ((maskChannels mask).length - (s.unparkedOf mask).length)
        ++ byte1 (if tag ≠ 0 ∧ 1 ≤ (fadeNow mask target.toNat time.toNat curve.toNat tag.toNat s).1.fade.tagged tag.toNat
          then 1 else 0)⟩) := by
  have zero : time.toNat = 0 ↔ time = 0 := by
    rw [← BitVec.toNat_inj]
    rfl
  have named : tag.toNat = 0 ↔ tag = 0 := by
    rw [← BitVec.toNat_inj]
    rfl
  have last : flag (decide (tag ≠ 0)
      && ((fadeNow mask target.toNat time.toNat curve.toNat tag.toNat s).1.fade.batch tag.toNat).isSome)
      = if tag ≠ 0 ∧ 1 ≤ (fadeNow mask target.toNat time.toNat curve.toNat tag.toNat s).1.fade.tagged tag.toNat
        then 1 else 0 := by
    by_cases none_ : tag = 0
    · simp [none_, flag]
    · have number : tag.toNat ≠ 0 := fun eq => none_ (named.mp eq)
      obtain ⟨b, open_, _⟩ := fadeMiddle_batch (mask := mask) (target := target.toNat) (time := time.toNat)
        (curve := curve.toNat) (s := s) number
      have settled := settleBatch_isSome number open_
      rw [fadeNow_tagged, fadeNow_eq]
      simp only [flag, none_, ne_eq, not_false_iff, decide_true, Bool.true_and, true_and, settled]
  unfold fadeOp fadeRequest
  rw [check]
  dsimp only
  rw [last]
  have counts := fadeMiddle_counts (mask := mask) (target := target.toNat) (time := time.toNat) (curve := curve.toNat)
    (tag := tag.toNat) (s := s)
  simp only [zero] at counts
  have counted : (fadeNow mask target.toNat time.toNat curve.toNat tag.toNat s).2 = _ := counts
  rw [counted]

theorem fadeNow_chan (c : Chan) : (fadeNow mask target.toNat time.toNat curve.toNat tag.toNat s).1.chan c
    = if c ∈ s.unparkedOf mask then
        (s.chan c).started s.now ⟨c, target.toNat, time.toNat, curve.toNat, .direct tag.toNat⟩ else s.chan c := by
  rw [fadeNow_eq, settleBatch_chan, fadeMiddle_chan]

end

theorem Channel.started_set {now : Time} {q : StartReq} {r : Channel} (free : r.park = none) (zero : q.duration = 0) :
    r.started now q = ⟨q.target, none, none, .owned q.owner⟩ := by
  unfold Channel.started
  rw [if_neg (by rw [isParked_eq, free]; simp), if_pos zero, free]

theorem Channel.started_fade {now : Time} {q : StartReq} {r : Channel} (free : r.park = none) (timed : q.duration ≠ 0) :
    r.started now q = ⟨r.level, none, some ⟨r.level, q.target, q.curve, q.duration, 0, now, q.owner, false⟩,
      .owned q.owner⟩ := by
  unfold Channel.started
  rw [if_neg (by rw [isParked_eq, free]; simp), if_neg timed, free]

/-- Settles O33: a FADE opens its batch, clears the scheduled starts, starts each unparked channel once, and settles. -/
theorem fadeActsOnItsChannels : Obligations.FadeActsOnItsChannels := by
  have answers {h : Hdr} {mask : ChanMask} {target : Half} {time : Word} {curve tag : Byte} {s t : State} {st : Status}
      {data : List Byte} (takes : TakesNew h 0x30 s) (run : fadeOp mask target time curve tag s.taken = (t, ⟨st, data⟩)) :
      Answers (.fade h mask target time curve tag) h 0x30 s t st data :=
    answers_new h (.fade mask target time curve tag) s t st data takes rfl run
  refine ⟨fun h mask target time curve tag s takes lo short number defined => ?_,
    fun h mask target time curve tag s takes => ⟨fun bad => ?_, fun some_ lo short number => ⟨fun absent => ?_,
      fun defined parked => ?_⟩⟩⟩
  · intro free some_
    obtain ⟨c, hc⟩ := some_
    have mem (c : Chan) : c ∈ s.taken.unparkedOf mask ↔ free c = true := by
      rw [mem_unparkedOf, taken_chan]
    have check : fadeCheck mask target.toNat time.toNat curve.toNat s.taken = none :=
      fadeCheck_ok lo short number (by rwa [taken_working]) (List.ne_nil_of_mem ((mem c).mpr hc))
    have run := fadeOp_done (tag := tag) check
    have chan := fadeNow_chan (mask := mask) (target := target) (time := time) (curve := curve) (tag := tag) (s := s.taken)
    obtain ⟨sched, position, follow⟩ := fadeMiddle_player (mask := mask) (target := target.toNat) (time := time.toNat)
      (curve := curve.toNat) (tag := tag.toNat) (s := s.taken)
    have master := fadeNow_master (mask := mask) (target := target.toNat) (time := time.toNat)
      (curve := curve.toNat) (tag := tag.toNat) (s := s.taken)
    obtain ⟨ended, how, reported, cut, offered⟩ := fadeNow_reports (mask := mask) (target := target.toNat)
      (time := time.toNat) (curve := curve.toNat) (tag := tag.toNat) (s := s.taken)
    have player : (fadeNow mask target.toNat time.toNat curve.toNat tag.toNat s.taken).1.player
        = (fadeMiddle mask target.toNat time.toNat curve.toNat tag.toNat s.taken).1.player := by
      rw [fadeNow_eq, settleBatch_player]
    have named : tag.toNat ≠ 0 ↔ tag ≠ 0 := not_congr (by rw [← BitVec.toNat_inj]; rfl)
    have zero : time.toNat = 0 ↔ time = 0 := by
      rw [← BitVec.toNat_inj]
      rfl
    have unparked (c : Chan) (hc : free c = true) : (s.chan c).park = none := by
      simpa using (Bool.and_eq_true_iff.mp hc).2
    rw [length_parkedOf, length_unparkedOf] at run
    simp only [taken_chan, taken_player, taken_now, mem] at run chan sched position follow
    have law : TagLaw s.taken ↔ TagLaw s := by unfold TagLaw; rw [taken_fade]
    rw [law, taken_fade] at cut
    simp only [named] at offered
    have played := fadeNow_played mask target.toNat time.toNat curve.toNat tag.toNat s.taken
    have judged : EndsReported ⟨none, some tag.toNat⟩ allCut ended s _ := reported.congr (by rw [taken_player])
      (fun b _ => by rw [taken_fade]) (fun _ _ => .rfl) fun _ _ => .rfl
    generalize (fadeNow mask target.toNat time.toNat curve.toNat tag.toNat s.taken).1 = t at *
    refine ⟨t, answers takes run, fun c out => (chan c).trans (if_neg (by rw [out]; exact Bool.false_ne_true)),
      fun c here at_once => ?_, fun c here timed => ?_, ?_, by rw [player, position], by rw [player, follow],
      by rw [master.master, taken_fade], by rw [master.ctx, taken_fade], ⟨ended, how, judged, cut, offered⟩,
      played.only⟩
    · rw [chan c, if_pos here, Channel.started_set (unparked c here) (zero.mpr at_once)]
    · rw [chan c, if_pos here, Channel.started_fade (unparked c here) fun eq => timed (zero.mp eq)]
    · rw [player, sched]
      exact List.filter_congr fun e _ => by rw [Bool.decide_eq_true]
  · refine answers takes (fadeOp_refused ?_ (by decide))
    exact if_pos bad
  · refine answers takes (fadeOp_refused (st := .notFound) ?_ (by decide))
    unfold fadeCheck
    rw [if_neg (by simp only [some_, false_or]; omega), taken_working, absent]
    rfl
  · refine answers takes (fadeOp_refused (st := .parked) ?_ (by decide))
    have is_some : (s.working.curve curve.toNat).isNone = false := by simpa using defined
    unfold fadeCheck
    rw [if_neg (by simp only [some_, false_or]; omega), taken_working, is_some, if_neg Bool.false_ne_true]
    exact if_pos (unparkedOf_nil.mpr fun c hc => by rw [taken_chan]; exact parked c hc)

end Sys2Proof.Machine
end

section
/-! SUPPORT. A scheduled start that expires, and RELEASE (chapter 3). -/

namespace Sys2Proof.Machine

/-! ## One item of a cue ends by itself -/

section
variable {n : Nat} {s : State}

theorem accountCue_absent {hold : Hold} {cut : Bool} (absent : s.player.entry n = none) : accountCue hold n cut s = s := by
  unfold accountCue
  rw [absent]

theorem accountCue_last {cut : Bool} {x : Live} (entry : s.player.entry n = some x) (last : x.count ≤ 1) :
    accountCue .none n cut s = offerCueDone n (howOf (x.cut || cut)) (s.setPlayer (s.player.dropEntry n)) := by
  unfold accountCue
  rw [entry]
  exact if_pos ⟨by simp only [Live.ended]; omega, by simp [Hold.none]⟩

theorem accountCue_more {cut : Bool} {x : Live} (entry : s.player.entry n = some x) (more : 2 ≤ x.count) :
    accountCue .none n cut s = s.setPlayer (s.player.putEntry n (x.ended cut)) := by
  unfold accountCue
  rw [entry]
  exact if_neg fun both => by
    have := both.1
    simp only [Live.ended] at this
    omega

theorem Player.entry_putEntry {p : Player} {x y : Live} (entry : p.entry n = some x) (same : y.cue = n) :
    (p.putEntry n y).entry n = some y := by
  have here : (fun z : Live => z.cue == n) ∘ (fun z => if z.cue == n then y else z) = fun z => z.cue == n := by
    funext z
    by_cases hz : z.cue = n <;> simp [hz, same]
  unfold Player.entry Player.putEntry
  dsimp only
  rw [List.find?_map, here, show p.live.find? (fun z => z.cue == n) = some x from entry]
  simp [(Player.entry_some entry).2]

theorem Player.entry_dropEntry (n : Nat) (p : Player) : (p.dropEntry n).entry n = none := by
  simp [Player.entry, Player.dropEntry]

theorem Player.mem_dropEntry {p : Player} {e : Live} : e ∈ (p.dropEntry n).live ↔ e ∈ p.live ∧ e.cue ≠ n := by
  simp [Player.dropEntry]

theorem Player.mem_putEntry {p : Player} {e y : Live} (same : y.cue = n) (other : e.cue ≠ n) :
    e ∈ (p.putEntry n y).live ↔ e ∈ p.live := by
  simp only [Player.putEntry, List.mem_map]
  constructor
  · rintro ⟨x, hx, rfl⟩
    split
    · next eq =>
      rw [if_pos eq] at other
      exact absurd same other
    · exact hx
  · exact fun he => ⟨e, he, by simp [other]⟩

/-- The accounting of one cue touches the entries of no other. -/
theorem accountCue_others (hold : Hold) (cut : Bool) {e : Live} (other : e.cue ≠ n) :
    e ∈ (accountCue hold n cut s).player.live ↔ e ∈ s.player.live := by
  unfold accountCue
  split
  · rfl
  · next x entry =>
    dsimp only
    split
    · exact Player.mem_dropEntry.trans (and_iff_left other)
    · exact Player.mem_putEntry (Player.entry_some entry).2 other

theorem entry_some_iff {p : Player} : (∃ x ∈ p.live, x.cue = n) ↔ ∃ x, p.entry n = some x := by
  rw [← Option.isSome_iff_exists, Player.entry, List.find?_isSome]
  simp

/-- What one item of a cue reports when it ends: CUE_DONE if it was the cue's last (R71, R72). -/
def lastItem (n : Nat) (how : How) (s t : State) : List Report :=
  if (∃ x ∈ s.player.live, x.cue = n) ∧ ∀ x ∈ t.player.live, x.cue ≠ n then [.cueDone n how] else []

theorem lastItem_congr {s' t : State} (how : How)
    (same : (∃ x, s.player.entry n = some x) ↔ ∃ x, s'.player.entry n = some x) : lastItem n how s t = lastItem n how s' t :=
  if_congr (and_congr_left' (entry_some_iff.trans (same.trans entry_some_iff.symm))) rfl rfl

theorem lastItem_absent {t : State} (how : How) (absent : s.player.entry n = none) : lastItem n how s t = [] :=
  if_neg fun both => by
    obtain ⟨x, entry⟩ := entry_some_iff.mp both.1
    rw [absent] at entry
    cases entry

theorem lastItem_stays {t : State} (how : How) {x : Live} (stays : t.player.entry n = some x) : lastItem n how s t = [] :=
  if_neg fun both => by
    obtain ⟨y, hy, eq⟩ := entry_some_iff.mpr ⟨x, stays⟩
    exact both.2 y hy eq

theorem lastItem_gone {t : State} (how : How) {x : Live} (entry : s.player.entry n = some x)
    (gone : t.player.entry n = none) : lastItem n how s t = [.cueDone n how] :=
  if_pos ⟨entry_some_iff.mpr ⟨x, entry⟩, Player.entry_none gone⟩

/-- The accounting of one item of cue `n` offers CUE_DONE if it was the last, COMPLETED or CUT by the flag (R71, R72). -/
theorem accountCue_offers (cut : Bool) (how : How) (told : ∀ x, s.player.entry n = some x → how = howOf (x.cut || cut)) :
    Offers (lastItem n how s (accountCue .none n cut s)) s (accountCue .none n cut s) := by
  cases entry : s.player.entry n with
  | none =>
    rw [lastItem_absent _ entry, accountCue_absent entry]
    exact .nil rfl rfl
  | some x =>
    by_cases last : x.count ≤ 1
    · have run := accountCue_last (cut := cut) entry last
      rw [lastItem_gone how entry (by rw [run]; exact Player.entry_dropEntry n _), run, told x entry]
      exact (offerCueDone_offers n _ _).congr rfl rfl rfl rfl rfl rfl
    · have run := accountCue_more (cut := cut) entry (Nat.not_le.mp last)
      rw [lastItem_stays how (by rw [run]; exact Player.entry_putEntry entry (Player.entry_some entry).2), run]
      exact .nil rfl rfl

/-- Two items of cue `n` end, the first of them cut. -/
theorem accountCue_twice : Offers (lastItem n .cut s (accountCue .none n false (accountCue .none n true s))) s
    (accountCue .none n false (accountCue .none n true s)) := by
  cases entry : s.player.entry n with
  | none =>
    rw [accountCue_absent entry, accountCue_absent entry, lastItem_absent _ entry]
    exact .nil rfl rfl
  | some x =>
    have cue := (Player.entry_some entry).2
    by_cases last : x.count ≤ 1
    · have run := accountCue_last (cut := true) entry last
      have gone : (accountCue .none n true s).player.entry n = none := by
        rw [run]
        exact Player.entry_dropEntry n _
      rw [accountCue_absent gone]
      exact accountCue_offers true .cut fun x _ => (howOf_or_true _).symm
    · have run := accountCue_more (cut := true) entry (Nat.not_le.mp last)
      have here : (accountCue .none n true s).player.entry n = some (x.ended true) := by
        rw [run]
        exact Player.entry_putEntry entry cue
      have later := accountCue_offers (s := accountCue .none n true s) (n := n) false .cut fun y hy => by
        obtain rfl := Option.some.inj (here.symm.trans hy)
        simp [Live.ended, howOf]
      rw [lastItem_congr (s' := accountCue .none n true s) .cut (iff_of_true ⟨x, entry⟩ ⟨_, here⟩)]
      refine later.congr ?_ ?_ ?_ ?_ rfl rfl <;> rw [run] <;> rfl

/-- The accounting of one cue leaves the entry of another. -/
theorem accountCue_entry_other (hold : Hold) (cut : Bool) {m : Nat} (other : m ≠ n) :
    (accountCue hold n cut s).player.entry m = s.player.entry m := by
  unfold accountCue
  split
  · rfl
  · next x entry =>
    have cue := (Player.entry_some entry).2
    dsimp only
    split
    · have same : (fun z : Live => decide ((z.cue != n) = true ∧ (z.cue == m) = true)) = fun z => z.cue == m := by
        funext z
        by_cases hz : z.cue = m
        · simp [hz, other]
        · simp [hz]
      simp only [offerCueDone_player, State.setPlayer_player, Player.entry, Player.dropEntry, List.find?_filter, same]
    · have same : (fun z : Live => z.cue == m) ∘ (fun z => if z.cue == n then x.ended cut else z)
          = fun z => z.cue == m := by
        funext z
        by_cases hz : z.cue = n
        · simp [hz, Live.ended, cue]
        · simp [hz]
      simp only [State.setPlayer_player, Player.entry, Player.putEntry, List.find?_map, same]
      cases found : s.player.live.find? fun z => z.cue == m with
      | none => rfl
      | some y =>
        have number : y.cue = m := by simpa using List.find?_some found
        simp [number, other]

end

/-! ## A scheduled start expires -/

section
variable {s : State} {e : Sched} {rest : List Sched}

theorem exec_scheduledStartExpiry_due (run : s.phase = .running) (sched : s.player.sched = e :: rest)
    (playing : s.player.state ≠ .paused) (due : e.left.remaining ≤ since s.now e.left.lastAdvance) :
    exec .scheduledStartExpiry s = .next (expireSched e s) := by
  have hrun : s.runs = true := decide_eq_true run
  have hdue : s.schedDue = some e := by
    unfold State.schedDue
    rw [sched]
    exact if_pos ⟨playing, Nat.sub_eq_zero_of_le due⟩
  change execScheduledStartExpiry s = _
  unfold execScheduledStartExpiry
  rw [hrun, hdue]

theorem exec_scheduledStartExpiry_waits (sched : s.player.sched = e :: rest)
    (waits : s.player.state = .paused ∨ since s.now e.left.lastAdvance < e.left.remaining) :
    exec .scheduledStartExpiry s = .next s := by
  have hdue : s.schedDue = none := by
    unfold State.schedDue
    rw [sched]
    refine if_neg fun both => ?_
    have : e.left.remaining - since s.now e.left.lastAdvance = 0 := both.2
    rcases waits with paused | early
    · exact both.1 paused
    · omega
  change execScheduledStartExpiry s = _
  unfold execScheduledStartExpiry
  rw [hdue]
  cases s.runs <;> rfl

/-- The start request of a scheduled start, on the list without it (R64). -/
def startScheduled (e : Sched) (s : State) : State :=
  (startRequest .none ⟨e.channel, e.target, e.time, e.curve, .cue e.owner⟩
    (s.setPlayer { s.player with sched := s.player.sched.tail })).1

theorem expireSched_fade (free : (s.chan e.channel).park = none) (timed : e.time ≠ 0) :
    expireSched e s = startScheduled e s := by
  have result := startRequest_result .none ⟨e.channel, e.target, e.time, e.curve, .cue e.owner⟩
    (s.setPlayer { s.player with sched := s.player.sched.tail })
  have unparked : ((s.setPlayer { s.player with sched := s.player.sched.tail }).chan e.channel).isParked = false := by
    rw [isParked_eq]
    exact decide_eq_false (not_not_intro free)
  rw [unparked, if_neg Bool.false_ne_true, if_neg timed] at result
  unfold expireSched
  dsimp only
  split
  · next eq =>
    rw [eq] at result
    cases result
  · next eq => exact (congrArg Prod.fst eq).symm

theorem expireSched_set (free : (s.chan e.channel).park = none) (at_once : e.time = 0) :
    expireSched e s = accountCue .none e.owner false (startScheduled e s) := by
  have result := startRequest_result .none ⟨e.channel, e.target, e.time, e.curve, .cue e.owner⟩
    (s.setPlayer { s.player with sched := s.player.sched.tail })
  have unparked : ((s.setPlayer { s.player with sched := s.player.sched.tail }).chan e.channel).isParked = false := by
    rw [isParked_eq]
    exact decide_eq_false (not_not_intro free)
  rw [unparked, if_neg Bool.false_ne_true, if_pos at_once] at result
  unfold expireSched
  dsimp only
  split
  · next eq => rw [show startScheduled e s = _ from congrArg Prod.fst eq]
  · next other eq =>
    rw [eq] at result
    exact (other result).elim

theorem startScheduled_chan (c : Chan) : (startScheduled e s).chan c
    = if e.channel = c then (s.chan c).started s.now ⟨e.channel, e.target, e.time, e.curve, .cue e.owner⟩ else s.chan c :=
  startRequest_chan _ _ _ c

theorem startScheduled_player : (startScheduled e s).player.sched = s.player.sched.tail
    ∧ (startScheduled e s).player.position = s.player.position ∧ (startScheduled e s).player.follow = s.player.follow := by
  have h := startRequest_accounted .none ⟨e.channel, e.target, e.time, e.curve, .cue e.owner⟩
    (s.setPlayer { s.player with sched := s.player.sched.tail })
  exact ⟨h.sched, h.position, h.follow⟩

theorem startScheduled_ended : Ended .none true s (startScheduled e s) :=
  (show Ended .none true s (s.setPlayer { s.player with sched := s.player.sched.tail }) from
    ⟨[], .same rfl rfl rfl rfl rfl rfl⟩).trans (startRequest_ended _ _ _)

/-- A start request ends with a channel record set on the state without the old context. -/
theorem startRequest_eq {hold : Hold} {q : StartReq} (free : (s.chan q.channel).park = none) :
    ∃ r, (startRequest hold q s).1 = (removeContext hold q.channel s).setChan q.channel r := by
  unfold startRequest
  rw [if_neg (by rw [isParked_eq, free]; simp)]
  dsimp only
  split <;> exact ⟨_, rfl⟩

theorem startScheduled_quiet (free : (s.chan e.channel).park = none) (empty : (s.chan e.channel).fade = none) :
    (startScheduled e s).player.live = s.player.live ∧ (startScheduled e s).fade.tags = s.fade.tags
      ∧ Offers [] s (startScheduled e s) := by
  obtain ⟨r, eq⟩ := startRequest_eq (hold := .none) (s := s.setPlayer { s.player with sched := s.player.sched.tail })
    (q := ⟨e.channel, e.target, e.time, e.curve, .cue e.owner⟩) free
  have still : removeContext .none e.channel (s.setPlayer { s.player with sched := s.player.sched.tail })
      = s.setPlayer { s.player with sched := s.player.sched.tail } := by
    unfold removeContext
    rw [show ((s.setPlayer { s.player with sched := s.player.sched.tail }).chan e.channel).fade = none from empty]
  rw [startScheduled, eq, still]
  exact ⟨rfl, rfl, .nil rfl rfl⟩

/-- A takeover of another owner's context leaves the entry of cue `n`, and reports it nowhere. -/
theorem removeContext_other {n : Nat} {c : Chan} (other : ¬ s.fadesFor c n) :
    Ended ⟨some n, none⟩ true s (removeContext .none c s)
      ∧ (removeContext .none c s).player.entry n = s.player.entry n := by
  unfold removeContext
  split
  · exact ⟨.refl s, rfl⟩
  · next f hf =>
    have ne : f.owner ≠ .cue n := fun eq => other ⟨f, hf, eq⟩
    refine ⟨(setChan_ended c _ s).trans (endNotice_ended (hold := .none) (hold' := ⟨some n, none⟩) true (fun m eq => .inr fun held => ?_)
      (fun _ _ => .inl rfl) _), ?_⟩
    · rw [Option.some.inj held] at ne
      exact ne eq
    · unfold endNotice
      split
      · next m eq => exact accountCue_entry_other _ _ fun same => ne (by rw [eq, same])
      · split
        · rfl
        · rw [accountTag_player]
          rfl
      · rfl

theorem accountCue_setChan (hold : Hold) (n : Nat) (cut : Bool) (c : Chan) (r : Channel) :
    accountCue hold n cut (s.setChan c r) = (accountCue hold n cut s).setChan c r := by
  unfold accountCue
  rw [State.setChan_player]
  split
  · rfl
  · dsimp only
    split <;> rfl

/-- What a scheduled start that sets its level reports (R64, R71, R72): what its takeover ends, its own cue apart, and then
its own cue if this was the cue's last item. -/
theorem expireSched_set_reports (free : (s.chan e.channel).park = none) (at_once : e.time = 0) :
    ∃ (ended : List Report) (how : How), EndsReported ⟨some e.owner, none⟩ allCut ended s (expireSched e s)
      ∧ (∀ x, s.player.entry e.owner = some x → how
        = if x.cut = true ∨ ∃ f, (s.chan e.channel).fade = some f ∧ f.owner = .cue e.owner then .cut else .completed)
      ∧ Offers (ended ++ lastItem e.owner how s (expireSched e s)) s (expireSched e s) := by
  have free' : ∀ x : Live, (⟨some e.owner, none⟩ : Hold).cue ≠ some x.cue → x.cue ≠ e.owner := fun x other eq =>
    other (congrArg some eq.symm)
  let s1 := s.setPlayer { s.player with sched := s.player.sched.tail }
  obtain ⟨r, eq⟩ := startRequest_eq (hold := .none) (s := s1)
    (q := ⟨e.channel, e.target, e.time, e.curve, .cue e.owner⟩) free
  have run : expireSched e s = accountCue .none e.owner false ((removeContext .none e.channel s1).setChan e.channel r) := by
    rw [expireSched_set free at_once, startScheduled, eq]
  have first : Ended ⟨some e.owner, none⟩ true s s1 := ⟨[], .same rfl rfl rfl rfl rfl rfl⟩
  by_cases own : s.fadesFor e.channel e.owner
  · obtain ⟨f, hf, owner⟩ := own
    have removed : removeContext .none e.channel s1
        = accountCue .none e.owner true (s1.setChan e.channel { s1.chan e.channel with fade := none }) := by
      unfold removeContext
      rw [show (s1.chan e.channel).fade = some f from hf]
      dsimp only
      rw [owner]
      rfl
    have none_ : Ends ⟨some e.owner, none⟩ true [] s s := .same rfl rfl rfl rfl rfl rfl
    rw [removed, accountCue_setChan] at run
    have twice := accountCue_twice (n := e.owner) (s := s1.setChan e.channel { s1.chan e.channel with fade := none })
    refine ⟨[], .cut, none_.cuts.congr rfl (fun _ _ => .rfl) (fun x other => ?_) (fun b _ => ?_), fun x _ => ?_, ?_⟩
    · rw [run]
      exact (accountCue_others _ _ (free' x other)).trans (accountCue_others _ _ (free' x other))
    · rw [run, State.setChan_tags, accountCue_fade, accountCue_fade]
      rfl
    · rw [if_pos (.inr ⟨f, hf, owner⟩)]
    · rw [run]
      exact twice.congr rfl rfl rfl rfl rfl rfl
  · obtain ⟨taken, entry⟩ := removeContext_other (s := s1) (c := e.channel) (n := e.owner) own
    obtain ⟨ended, ends⟩ := (first.trans taken).trans (setChan_ended e.channel r _)
    have entry : ((removeContext .none e.channel s1).setChan e.channel r).player.entry e.owner
        = s.player.entry e.owner := entry
    generalize (removeContext .none e.channel s1).setChan e.channel r = u at run ends entry
    rw [run]
    let how : How := if (s.player.entry e.owner).any (·.cut) then .cut else .completed
    have last := accountCue_offers (s := u) (n := e.owner) false how fun x hx => by
      rw [entry] at hx
      simp [how, hx, howOf]
    rw [lastItem_congr (s' := s) how (by rw [entry])] at last
    refine ⟨ended, how, ends.cuts.congr rfl (fun _ _ => .rfl) (fun x other => accountCue_others _ _ (free' x other))
      (fun b _ => by rw [accountCue_fade]), fun x hx => ?_, ends.offers.append last ends.now ends.working⟩
    have alone : ¬ ∃ f, (s.chan e.channel).fade = some f ∧ f.owner = .cue e.owner := own
    simp [how, hx, alone]

/-- A scheduled start of a channel without a fade reports its cue if it sets the level as the cue's last item, and nothing
else (R64, R71, R72). -/
theorem expireSched_alone {x : Live} (free : (s.chan e.channel).park = none) (empty : (s.chan e.channel).fade = none)
    (entry : s.player.entry e.owner = some x) :
    (e.time = 0 → x.count = 1 → Offers [.cueDone e.owner (byFlag x.cut)] s (expireSched e s))
      ∧ (e.time ≠ 0 ∨ 2 ≤ x.count → Offers [] s (expireSched e s)) := by
  obtain ⟨live, tags, quiet⟩ := startScheduled_quiet free empty
  obtain ⟨_, ends⟩ := startScheduled_ended (e := e) (s := s)
  have here : (startScheduled e s).player.entry e.owner = some x := by rw [Player.entry, live]; exact entry
  refine ⟨fun at_once one => ?_, fun either => ?_⟩
  · rw [expireSched_set free at_once, accountCue_last here one.le, Bool.or_false]
    exact quiet.append ((offerCueDone_offers _ _ _).congr rfl rfl rfl rfl rfl rfl) ends.now ends.working
  · by_cases at_once : e.time = 0
    · rw [expireSched_set free at_once, accountCue_more here (either.resolve_left (not_not_intro at_once))]
      exact quiet.congr rfl rfl rfl rfl rfl rfl
    · rwa [expireSched_fade free at_once]

end

/-- Settles O30: the start request of the entry, and the accounting of its item if it sets the level. -/
theorem scheduledStartExpires : Obligations.ScheduledStartExpires := by
  refine fun s e rest run sched => ⟨fun playing due free => ?_, exec_scheduledStartExpiry_waits sched⟩
  have played := expireSched_played e s
  have chan : ∀ c, (expireSched e s).chan c = (startScheduled e s).chan c := fun c => by
    by_cases at_once : e.time = 0
    · rw [expireSched_set free at_once, State.chan, accountCue_fade, State.chan]
    · rw [expireSched_fade free at_once]
  have player : (startScheduled e s).player.Accounted (expireSched e s).player := by
    by_cases at_once : e.time = 0
    · rw [expireSched_set free at_once]
      exact accountCue_accounted _ _ _ _
    · rw [expireSched_fade free at_once]
      exact .refl _
  obtain ⟨tail, position, follow⟩ := startScheduled_player (e := e) (s := s)
  refine ⟨expireSched e s, exec_scheduledStartExpiry_due run sched playing due, ?_, fun timed => ?_, fun at_once => ?_,
    fun c other => ?_, fun x entry empty => expireSched_alone free empty entry, fun timed => ?_,
    fun at_once => expireSched_set_reports free at_once, player.position.trans position, player.follow.trans follow,
    played.only⟩
  · rw [player.sched, tail, sched, List.tail_cons]
  · rw [chan, startScheduled_chan, if_pos rfl, Channel.started_fade free timed]
  · rw [chan, startScheduled_chan, if_pos rfl, Channel.started_set free at_once]
  · rw [chan, startScheduled_chan, if_neg (Ne.symm other)]
  · rw [expireSched_fade free timed]
    obtain ⟨ended, ends⟩ := startScheduled_ended (e := e) (s := s)
    exact ⟨ended, ends.cuts, ends.offers⟩

/-! ## RELEASE -/

section
variable {time : Nat} {s : State}

/-- A channel that RELEASE takes to 0: not parked, and lit or fading (R76). -/
def Channel.lit (r : Channel) : Bool := decide (r.park = none ∧ (0 < r.level ∨ r.fade ≠ none))

theorem releaseChannel_eq (acc : State × Nat) (c : Chan) : releaseChannel time acc c = if (acc.1.chan c).lit then
    ((startRequest .none ⟨c, 0, time, 0, .release⟩ acc.1).1, acc.2 + 1) else acc := by
  unfold releaseChannel Channel.lit
  simp only [isParked_eq, fade_isSome_eq]
  by_cases parked : (acc.1.chan c).park = none <;> simp [parked]

theorem releaseChannel_chan (acc : State × Nat) (c d : Chan) : (releaseChannel time acc c).1.chan d = if c = d then
    (if (acc.1.chan d).lit then (acc.1.chan d).started acc.1.now ⟨d, 0, time, 0, .release⟩ else acc.1.chan d)
    else acc.1.chan d := by
  rw [releaseChannel_eq]
  by_cases eq : c = d
  · subst eq
    by_cases lit : (acc.1.chan c).lit = true
    · simp [lit, startRequest_chan]
    · simp [lit]
  · by_cases lit : (acc.1.chan c).lit = true
    · simp [lit, startRequest_chan, eq]
    · simp [lit, eq]

theorem releaseChannels_chan {l : List Chan} (distinct : l.Nodup) (acc : State × Nat) (d : Chan) :
    (l.foldl (releaseChannel time) acc).1.chan d = if d ∈ l then
      (if (acc.1.chan d).lit then (acc.1.chan d).started acc.1.now ⟨d, 0, time, 0, .release⟩ else acc.1.chan d)
      else acc.1.chan d :=
  foldl_chan (state := Prod.fst) (P := fun a => a.1.now = acc.1.now)
    (g := fun d r => if r.lit then r.started acc.1.now ⟨d, 0, time, 0, .release⟩ else r)
    (fun a c h => (releaseChannel_played time a c).now.trans h)
    (fun a c d h => by rw [releaseChannel_chan, h]) distinct acc rfl d

theorem releaseChannels_count {l : List Chan} (distinct : l.Nodup) (acc : State × Nat) :
    (l.foldl (releaseChannel time) acc).2 = acc.2 + l.countP fun c => (acc.1.chan c).lit := by
  induction l generalizing acc with
  | nil => rfl
  | cons c rest ih =>
    obtain ⟨fresh, distinct⟩ := List.nodup_cons.mp distinct
    have stand : (rest.countP fun d => ((releaseChannel time acc c).1.chan d).lit)
        = rest.countP fun d => (acc.1.chan d).lit := List.countP_congr fun d hd => by
      rw [releaseChannel_chan, if_neg fun eq : c = d => fresh (eq ▸ hd)]
    rw [List.foldl_cons, ih distinct, stand, List.countP_cons, releaseChannel_eq]
    split
    · simp_all
      omega
    · simp_all

theorem releaseChannel_ended (acc : State × Nat) (c : Chan) : Ended .none true acc.1 (releaseChannel time acc c).1 := by
  rw [releaseChannel_eq]
  split
  · exact startRequest_ended _ _ _
  · exact .refl _

theorem releaseChannel_player (acc : State × Nat) (c : Chan) (empty : acc.1.player.live = []) :
    (releaseChannel time acc c).1.player = acc.1.player := by
  rw [releaseChannel_eq]
  split
  · exact startRequest_player empty
  · rfl

theorem releaseChannels_player (l : List Chan) (acc : State × Nat) (empty : acc.1.player.live = []) :
    (l.foldl (releaseChannel time) acc).1.player = acc.1.player := by
  induction l generalizing acc with
  | nil => rfl
  | cons c rest ih =>
    have same := releaseChannel_player (time := time) acc c empty
    rw [List.foldl_cons, ih _ (by rw [same]; exact empty), same]

theorem releaseEntries_offers (s : State) :
    Offers (s.player.live.map fun e => .cueDone e.cue .cut) s (releaseEntries s) := by
  have fold : ∀ (l : List Live) (u : State), Offers (l.map fun e => .cueDone e.cue .cut) u
      (l.foldl (fun s e => offerCueDone e.cue .cut
        (s.setPlayer { s.player with live := s.player.live.filter (·.cue != e.cue) })) u) := by
    intro l
    induction l with
    | nil => exact fun u => .nil rfl rfl
    | cons e rest ih =>
      intro u
      exact Offers.append (l := [_]) ((offerCueDone_offers e.cue .cut _).congr rfl rfl rfl rfl rfl rfl) (ih _) rfl rfl
  exact fold s.player.live s

/-- The state in which RELEASE turns to the channels: no scheduled start, no follow timer, no live entry (R76). -/
def releaseMiddle (s : State) : State := releaseEntries (s.setPlayer { s.player with sched := [], follow := none })

/-- The channels taken to 0 one after another, with the number started (R76 step 4). -/
def releaseAll (time : Nat) (s : State) : State × Nat := channels.foldl (releaseChannel time) (releaseMiddle s, 0)

theorem releaseNow_eq : releaseNow time s = ((releaseAll time s).1.setPlayer
      { (releaseAll time s).1.player with position := 0, resumeTo := none, state := .stopped },
    s.player.live.length, (releaseAll time s).2) := by
  unfold releaseNow releaseAll releaseMiddle
  generalize channels = l
  rfl

theorem releaseMiddle_player : (releaseMiddle s).player = { s.player with sched := [], follow := none, live := [] } :=
  releaseEntries_player _

theorem releaseMiddle_fade : (releaseMiddle s).fade = s.fade := releaseEntries_fade _

theorem releaseMiddle_chan (c : Chan) : (releaseMiddle s).chan c = s.chan c := by
  rw [State.chan, releaseMiddle_fade, State.chan]

theorem releaseMiddle_played : Played s (releaseMiddle s) := (Played.setPlayer _ s).trans (releaseEntries_played _)

theorem releaseMiddle_offers : Offers (s.player.live.map fun e => .cueDone e.cue .cut) s (releaseMiddle s) :=
  (releaseEntries_offers (s.setPlayer { s.player with sched := [], follow := none })).congr rfl rfl rfl rfl rfl rfl

theorem releaseNow_player : (releaseNow time s).1.player = ⟨.stopped, 0, none, none, [], []⟩ := by
  have all : (releaseAll time s).1.player = (releaseMiddle s).player := by
    unfold releaseAll
    exact releaseChannels_player _ _ (by rw [releaseMiddle_player])
  rw [releaseNow_eq]
  dsimp only
  rw [State.setPlayer_player, all, releaseMiddle_player]

theorem releaseNow_chan (c : Chan) : (releaseNow time s).1.chan c
    = if (s.chan c).lit then (s.chan c).started s.now ⟨c, 0, time, 0, .release⟩ else s.chan c := by
  have all : (releaseAll time s).1.chan c = if (s.chan c).lit then (s.chan c).started s.now ⟨c, 0, time, 0, .release⟩
      else s.chan c := by
    unfold releaseAll channels
    rw [releaseChannels_chan (List.nodup_finRange 24), if_pos (List.mem_finRange c)]
    dsimp only
    rw [releaseMiddle_chan, releaseMiddle_played.now]
  rw [releaseNow_eq]
  generalize releaseAll time s = r at all ⊢
  exact all

theorem releaseNow_counts : (releaseNow time s).2 = (s.player.live.length, (List.finRange 24).countP fun c => (s.chan c).lit) := by
  have all : (releaseAll time s).2 = (List.finRange 24).countP fun c => (s.chan c).lit := by
    unfold releaseAll channels
    rw [releaseChannels_count (List.nodup_finRange 24)]
    simp only [releaseMiddle_chan, Nat.zero_add]
  rw [releaseNow_eq, all]

theorem releaseNow_master : MasterKept s (releaseNow time s).1 := by
  have each : ∀ (acc : State × Nat) c, MasterKept acc.1 (releaseChannel time acc c).1 := fun acc c => by
    rw [releaseChannel_eq]
    split
    · exact startRequest_master _ _ _
    · exact .refl _
  have all : MasterKept (releaseMiddle s) (releaseAll time s).1 := by
    unfold releaseAll
    exact .foldlPair _ each channels (releaseMiddle s, 0)
  rw [releaseNow_eq]
  generalize releaseAll time s = r at all ⊢
  exact (MasterKept.of_fade releaseMiddle_fade).trans (all.trans ⟨rfl, rfl, rfl⟩)

/-- What RELEASE reports: CUE_DONE(CUT) for the live entries in their order, and then the tags it ends (R76, R90). -/
theorem releaseNow_reports : ∃ tags : List Report,
    Offers (s.player.live.map (fun e => .cueDone e.cue .cut) ++ tags) s (releaseNow time s).1
      ∧ (∀ d ∈ tags, ∃ g, d = .directDone g .cut)
      ∧ ∀ g, .directDone g .cut ∈ tags ↔
        (∃ b ∈ s.fade.tags, b.tag = g) ∧ ∀ b ∈ (releaseNow time s).1.fade.tags, b.tag ≠ g := by
  obtain ⟨tags, ends⟩ : Ended .none true (releaseMiddle s) (releaseNow time s).1 := by
    have all : Ended .none true (releaseMiddle s) (releaseAll time s).1 := by
      unfold releaseAll
      exact .foldlPair _ releaseChannel_ended channels (releaseMiddle s, 0)
    rw [releaseNow_eq]
    generalize releaseAll time s = r at all ⊢
    exact all.trans ⟨[], .same rfl rfl rfl rfl rfl rfl⟩
  refine ⟨tags, releaseMiddle_offers.append ends.offers releaseMiddle_played.now releaseMiddle_played.working,
    fun d hd => ?_, fun g => ?_⟩
  · rcases ends.reports d hd with ⟨e, he, _⟩ | ⟨b, _, _, eq⟩
    · rw [releaseMiddle_player] at he
      cases he
    · exact ⟨b.tag, by rw [eq, howOf_or_true]⟩
  · obtain ⟨_, _, _, batches⟩ := ends.cuts
    have here := batches g .cut
    rw [releaseMiddle_fade] at here
    rw [here]
    simp [Hold.none]

end

/-- Settles O29: RELEASE reports and drops the live entries, and then takes each lit channel to 0. -/
theorem releaseEndsPlayback : Obligations.ReleaseEndsPlayback := by
  intro h time s takes
  have answers {t : State} {st : Status} {data : List Byte} (run : releaseOp time s.taken = (t, ⟨st, data⟩)) :
      Answers (.release h time) h 0x25 s t st data :=
    answers_new h (.release time) s t st data takes rfl run
  refine ⟨fun long => answers (if_pos long), fun short => ?_⟩
  intro lit
  have run : releaseOp time s.taken = ((releaseNow time.toNat s.taken).1, ⟨.done,
      byte1 (releaseNow time.toNat s.taken).2.1 ++ byte1 (releaseNow time.toNat s.taken).2.2⟩) := by
    unfold releaseOp
    rw [if_neg (Nat.not_lt.mpr short)]
  have zero : time.toNat = 0 ↔ time = 0 := by
    rw [← BitVec.toNat_inj]
    rfl
  have chan := releaseNow_chan (time := time.toNat) (s := s.taken)
  have master := releaseNow_master (time := time.toNat) (s := s.taken)
  obtain ⟨tags, offered, kinds, ended⟩ := releaseNow_reports (time := time.toNat) (s := s.taken)
  rw [releaseNow_counts] at run
  simp only [taken_chan, taken_player, taken_now, taken_fade] at run chan offered ended
  have unparked (c : Chan) (hc : lit c = true) : (s.chan c).park = none := (of_decide_eq_true hc).1
  refine ⟨_, answers run, releaseNow_player, fun c dark => ?_, fun c bright at_once => ?_, fun c bright timed => ?_,
    ⟨tags, offered, kinds, ended⟩, by rw [master.master, taken_fade], by rw [master.ctx, taken_fade],
    (releaseNow_played time.toNat s.taken).only⟩
  · exact (chan c).trans (if_neg fun bright => Bool.false_ne_true (dark.symm.trans bright))
  · refine ((chan c).trans (if_pos bright)).trans ?_
    rw [Channel.started_set (unparked c bright) (zero.mpr at_once)]
  · refine ((chan c).trans (if_pos bright)).trans ?_
    rw [Channel.started_fade (unparked c bright) fun eq => timed (zero.mp eq)]

end Sys2Proof.Machine
end

section
/-! SUPPORT. PAUSE and RESUME, and the reads of playback, direct control and arm slots (sections 3.7, 3.11, 4.7, 5.5). -/

namespace Sys2Proof.Machine

/-! ## PAUSE and RESUME -/

theorem mapFades_chan (g : Fade → Fade) (s : State) (c : Chan) :
    (s.setFade (s.fade.mapFades g)).chan c = { s.chan c with fade := (s.chan c).fade.map g } :=
  FadeEngine.mapFades_at g s.fade c

section
variable {s : State}

theorem pauseNow_chan (was : ResumeTo) (c : Chan) :
    (pauseNow was s).chan c = { s.chan c with fade := (s.chan c).fade.map (Fade.freeze s.now) } := mapFades_chan _ s c

theorem pauseOp_running (playing : s.player.state = .running) : pauseOp s = (pauseNow .running s,
    ⟨.done, byte1 3 ++ byte1 (resumeCode (some .running))⟩) := by
  unfold pauseOp pauseRequest
  rw [playing]
  rfl

theorem pauseOp_waiting (waiting : s.player.state = .waiting) : pauseOp s = (pauseNow .waiting s,
    ⟨.done, byte1 3 ++ byte1 (resumeCode (some .waiting))⟩) := by
  unfold pauseOp pauseRequest
  rw [waiting]
  rfl

theorem pauseOp_paused (paused : s.player.state = .paused) :
    pauseOp s = (s, ⟨.done, byte1 3 ++ byte1 (resumeCode s.player.resumeTo)⟩) := by
  unfold pauseOp pauseRequest
  rw [paused]
  dsimp only
  rw [paused]
  rfl

theorem pauseOp_stopped (stopped : s.player.state = .stopped) : pauseOp s = refuse .wrongState s := by
  unfold pauseOp pauseRequest
  rw [stopped]
  rfl

/-- The state after a RESUME of a PAUSED player (R75). -/
def resumed (s : State) : State := (thawRequest s).setPlayer { s.player.thaw s.now with
  state := if s.player.live ≠ [] ∨ s.player.follow.isSome then .running else .waiting }

theorem resumeOp_paused (paused : s.player.state = .paused) : resumeOp s = (resumed s,
    ⟨.done, byte1 (if s.player.live ≠ [] ∨ s.player.follow.isSome then 1 else 2)⟩) := by
  have request : resumeRequest s = (resumed s, .done) := by
    unfold resumeRequest
    rw [if_pos paused]
    refine Prod.ext ?_ rfl
    have follow : (s.player.thaw s.now).follow.isSome = s.player.follow.isSome := Option.isSome_map
    have live : (s.player.thaw s.now).live = s.player.live := rfl
    change (thawRequest s).setPlayer { s.player.thaw s.now with state := if (s.player.thaw s.now).live ≠ []
      ∨ (s.player.thaw s.now).follow.isSome then .running else .waiting } = resumed s
    rw [follow, live]
    rfl
  unfold resumeOp
  rw [request]
  refine Prod.ext rfl (congrArg (fun x => (⟨.done, byte1 x⟩ : Resp)) ?_)
  change (if s.player.live ≠ [] ∨ s.player.follow.isSome then PState.running else .waiting).code = _
  split <;> rfl

theorem resumeOp_other (playing : s.player.state ≠ .paused) : resumeOp s = refuse .wrongState s := by
  unfold resumeOp resumeRequest
  rw [if_neg playing]
  rfl

end

/-- Settles O28: PAUSE and RESUME by the state of the player. -/
theorem pauseAndResume : Obligations.PauseAndResume := by
  refine ⟨fun h s takes => ?_, fun h s takes => ?_⟩
  · have answers {t : State} {st : Status} {data : List Byte} (run : pauseOp s.taken = (t, ⟨st, data⟩)) :
        Answers (.pause h) h 0x23 s t st data :=
      answers_new h .pause s t st data takes rfl run
    refine ⟨fun was before => ⟨pauseNow was s.taken, answers ?_, fun c => ?_, ?_, ?_⟩, fun paused => ?_,
      fun stopped => answers (pauseOp_stopped (by rw [taken_player, stopped]))⟩
    · rcases before with ⟨running, rfl⟩ | ⟨waiting, rfl⟩
      · exact pauseOp_running (by rw [taken_player, running])
      · exact pauseOp_waiting (by rw [taken_player, waiting])
    · rw [pauseNow_chan, taken_chan, taken_now]
      refine congrArg (fun g => ({ s.chan c with fade := (s.chan c).fade.map g } : Channel)) (funext fun f => ?_)
      obtain ⟨_, _, _, _, _, _, owner, _⟩ := f
      cases owner <;> rfl
    · have player : (pauseNow was s.taken).player = { s.taken.player with
          state := .paused
          resumeTo := some was
          sched := s.taken.player.sched.map fun e => { e with left := e.left.hold s.taken.now }
          follow := s.taken.player.follow.map (Countdown.hold s.taken.now) } := rfl
      rw [player, taken_player, taken_now]
      rfl
    · unfold pauseNow freezeRequest State.setPlayer State.setFade
      dsimp only
      rw [taken_fade]
      rfl
    · have run := pauseOp_paused (s := s.taken) (by rw [taken_player, paused])
      rw [taken_player] at run
      exact answers run
  · have answers {t : State} {st : Status} {data : List Byte} (run : resumeOp s.taken = (t, ⟨st, data⟩)) :
        Answers (.resume h) h 0x24 s t st data :=
      answers_new h .resume s t st data takes rfl run
    refine ⟨fun paused => ⟨resumed s.taken, ?_, fun c => ?_, ?_, ?_⟩, fun playing =>
      answers (resumeOp_other (by rwa [taken_player]))⟩
    · have run := resumeOp_paused (s := s.taken) (by rw [taken_player, paused])
      rw [taken_player] at run
      exact answers run
    · refine (mapFades_chan _ s.taken c).trans ?_
      rw [taken_chan, taken_now]
      rfl
    · have player : (resumed s.taken).player = { s.taken.player.thaw s.taken.now with
          state := if s.taken.player.live ≠ [] ∨ s.taken.player.follow.isSome then .running else .waiting } := rfl
      rw [player, taken_player, taken_now]
      rfl
    · unfold resumed thawRequest State.setPlayer State.setFade
      dsimp only
      rw [taken_fade]
      rfl

/-! ## READ_PLAYER, READ_CHANNELS, READ_ARM -/

section
variable {part first count : Byte} {s : State}

theorem readPlayerOp_live (zero : part = 0) (range : first.toNat ≤ s.player.live.length) :
    readPlayerOp part first s = (s, ⟨.done, playerCommon s ++ byte1 ((s.player.live.drop first.toNat).take 10).length
      ++ ((s.player.live.drop first.toNat).take 10).flatMap Live.bytes⟩) := by
  unfold readPlayerOp
  rw [zero]
  exact (if_pos rfl).trans (if_neg (Nat.not_lt.mpr range))

theorem readPlayerOp_sched (one : part = 1) (range : first.toNat ≤ s.player.sched.length) :
    readPlayerOp part first s = (s, ⟨.done, playerCommon s ++ byte1 ((s.player.sched.drop first.toNat).take 3).length
      ++ ((s.player.sched.drop first.toNat).take 3).flatMap (schedBytes s)⟩) := by
  unfold readPlayerOp
  rw [one]
  exact (if_neg (by decide)).trans ((if_pos rfl).trans (if_neg (Nat.not_lt.mpr range)))

theorem readPlayerOp_bad (bad : 1 < part.toNat ∨ (part = 0 ∧ s.player.live.length < first.toNat)
    ∨ (part = 1 ∧ s.player.sched.length < first.toNat)) : readPlayerOp part first s = refuse .badValue s := by
  unfold readPlayerOp
  dsimp only
  rcases bad with large | ⟨rfl, past⟩ | ⟨rfl, past⟩
  · rw [if_neg (by omega), if_neg (by omega)]
  · exact (if_pos rfl).trans (if_pos past)
  · exact (if_neg (by decide)).trans ((if_pos rfl).trans (if_pos past))

theorem readChannelsOp_bad (bad : first.toNat < 1 ∨ count.toNat < 1 ∨ 4 < count.toNat ∨ 25 < first.toNat + count.toNat) :
    readChannelsOp first count s = refuse .badValue s := if_pos (by omega)

theorem readChannelsOp_good (lo : 1 ≤ first.toNat) (one : 1 ≤ count.toNat) (four : count.toNat ≤ 4)
    (range : first.toNat + count.toNat ≤ 25) : readChannelsOp first count s = (s, ⟨.done, byte2 s.fade.master
      ++ opt2 (s.fade.masterCtx.map (·.target)) ++ opt2 (s.fade.masterCtx.map (MasterFade.remaining s.now))
      ++ byte1 (flags2 s.comp.hostBlackout s.comp.lineBlackout)
      ++ byte3 (maskOf fun c : Chan => (s.chan c).isParked) ++ byte3 (maskOf fun c : Chan => (s.chan c).fade.isSome)
      ++ byte1 s.fade.tags.length
      ++ (((List.finRange 24).drop (first.toNat - 1)).take count.toNat).flatMap (channelEntry s)⟩) :=
  if_neg (by omega)

/-- What READ_CHANNELS gives for a fade in progress: bit 15 says that it is frozen (R101). -/
theorem progress_eq (now : Time) (f : Fade) : f.fractionAt now + 32768 * flag f.frozen
    = if f.frozen then 32768 + timeFraction f.elapsed f.duration
      else timeFraction (f.elapsed + since now f.lastAdvance) f.duration := by
  unfold Fade.fractionAt Fade.fraction
  cases f.frozen
  · simp [flag]
  · simp [flag, Nat.add_comm]

theorem channelEntry_eq (s : State) (c : Chan) : channelEntry s c = byte2 (s.chan c).level
    ++ byte2 (s.chan c).lastOwner.code ++ match (s.chan c).fade with
      | none => [0, 0, 0xFF, 0xFF, 0xFF, 0xFF]
      | some f => byte2 f.owner.code ++ byte2 f.target
          ++ byte2 (if f.frozen then 32768 + timeFraction f.elapsed f.duration
              else timeFraction (f.elapsed + since s.now f.lastAdvance) f.duration) := by
  unfold channelEntry
  dsimp only
  cases (s.chan c).fade with
  | none => rfl
  | some f => simp only [progress_eq]

theorem readArmOp_good (k : Fin 8) : readArmOp (BitVec.ofNat 8 k.val) s = (s, ⟨.done,
    byte1 (maskOf fun j : Fin 8 => (s.slot j).isSome) ++ byte1 (maskOf fun j : Fin 8 => Table.at s.arm.fired j)
      ++ byte1 k.val ++ byte1 (flag (s.slot k).isSome) ++ armBytes (s.slot k) ++ opt2 (Table.at s.arm.memory k)⟩) := by
  unfold readArmOp
  rw [slotOf_ofNat]

end

/-- Settles O32: each read answers its page of the state as it stands, or refuses its operands. -/
theorem playbackReadsAnswer : Obligations.PlaybackReadsAnswer := by
  refine ⟨fun h part first s takes => ?_, fun h first count s takes => ?_, fun h k s takes => ?_⟩
  · intro left common
    have answers {t : State} {st : Status} {data : List Byte} (run : readPlayerOp part first s.taken = (t, ⟨st, data⟩)) :
        Answers (.readPlayer h part first) h 0x26 s t st data :=
      answers_new h (.readPlayer part first) s t st data takes rfl run
    have shown : s.taken.shownLeft = left := by
      funext c
      simp only [State.shownLeft, taken_player, taken_now, Countdown.leftAt, left]
    have start : playerCommon s.taken = common := by
      unfold playerCommon
      rw [shown]
      simp only [taken_player, taken_working]
      rfl
    refine ⟨fun zero range => ⟨_, rfl, answers ?_⟩, fun one range => ⟨_, rfl, answers ?_⟩, fun bad => answers ?_⟩
    · rw [readPlayerOp_live zero (by rwa [taken_player]), start, taken_player]
      rfl
    · have entry : schedBytes s.taken = fun e => byte1 (e.channel.val + 1) ++ byte2 e.owner ++ byte2 e.target
          ++ byte4 e.time ++ byte1 e.curve ++ byte2 (left e.left) := by
        funext e
        rw [schedBytes, shown]
        rfl
      rw [readPlayerOp_sched one (by rwa [taken_player]), start, entry, taken_player]
    · exact readPlayerOp_bad (by rwa [taken_player])
  · have answers {t : State} {st : Status} {data : List Byte} (run : readChannelsOp first count s.taken = (t, ⟨st, data⟩)) :
        Answers (.readChannels h first count) h 0x35 s t st data :=
      answers_new h (.readChannels first count) s t st data takes rfl run
    refine ⟨fun lo one four range => answers ?_, fun bad => answers (readChannelsOp_bad bad)⟩
    have entries : channelEntry s.taken = channelEntry s := by
      funext c
      simp only [channelEntry, taken_chan, taken_now]
    have remaining : MasterFade.remaining s.now = fun m => m.duration - (m.elapsed + since s.now m.lastAdvance) :=
      funext fun m => Nat.sub_sub _ _ _
    rw [readChannelsOp_good lo one four range, entries, funext (channelEntry_eq s)]
    simp only [taken_fade, taken_comp, taken_chan, taken_now, isParked_eq, fade_isSome_eq, remaining] <;> rfl
  · refine answers_new h (.readArm (BitVec.ofNat 8 k.val)) s _ _ _ takes rfl ((readArmOp_good k).trans ?_)
    simp only [taken_slot, taken_arm]
    refine Prod.ext rfl (congrArg (Resp.mk .done) ?_)
    cases slot : Table.at s.working.arms k with
    | none =>
      rw [show s.slot k = none from slot]
      simp [armBytes, flag, byte1, State.slot]
    | some d =>
      rw [show s.slot k = some d from slot]
      simp [armBytes, flag, State.slot]

end Sys2Proof.Machine
end

section
/-! SUPPORT. The actions of a GO operation one after another: what they leave on channels and in the scheduled start list, and
what ends with them (R59 steps 1 and 2). -/

namespace Sys2Proof.Machine

/-! ## Inserting a scheduled start -/

theorem insertSched_pairwise_of {R : Sched → Sched → Prop} {now : Time} {e : Sched} {l : List Sched} (h : l.Pairwise R)
    (sorted : l.Pairwise fun a b => a.left.leftAt now ≤ b.left.leftAt now)
    (before : ∀ x ∈ l, x.left.leftAt now ≤ e.left.leftAt now → R x e)
    (after : ∀ x ∈ l, e.left.leftAt now < x.left.leftAt now → R e x) : (insertSched now e l).Pairwise R := by
  induction l with
  | nil => exact List.pairwise_singleton R e
  | cons x rest ih =>
    obtain ⟨first, later⟩ := List.pairwise_cons.mp h
    obtain ⟨low, sorted'⟩ := List.pairwise_cons.mp sorted
    unfold insertSched
    split
    · next le =>
      refine List.pairwise_cons.mpr ⟨fun y hy => ?_, ih later sorted' (fun y hy => before y (List.mem_cons_of_mem x hy))
        fun y hy => after y (List.mem_cons_of_mem x hy)⟩
      rcases mem_insertSched.mp hy with rfl | hy
      · exact before x List.mem_cons_self le
      · exact first y hy
    · next gt =>
      refine List.pairwise_cons.mpr ⟨fun y hy => after y hy ?_, h⟩
      rcases List.mem_cons.mp hy with rfl | hy
      · omega
      · have := low y hy
        omega

theorem insertSched_filter {now : Time} {e : Sched} {P : Sched → Bool} (out : P e = false) (l : List Sched) :
    (insertSched now e l).filter P = l.filter P := by
  induction l with
  | nil => simp [insertSched, out]
  | cons x rest ih =>
    unfold insertSched
    split
    · rw [List.filter_cons, List.filter_cons, ih]
    · rw [List.filter_cons, if_neg (by rw [out]; exact Bool.false_ne_true)]

/-! ## One action -/

/-- The scheduled start of an action with a delay (R59 step 2, R62). -/
def Action.scheduled (a : Action) (n : Nat) (now : Time) : Sched :=
  ⟨a.channel, a.target, a.time, a.curve, n, ⟨a.delay, now⟩⟩

/-- The start request of an action without a delay (R59 step 2). -/
def Action.request (a : Action) (n : Nat) : StartReq := ⟨a.channel, a.target, a.time, a.curve, .cue n⟩

/-- The state in which an action acts: the older scheduled start of its channel is gone (R59 step 2). -/
def cleared (n : Nat) (a : Action) (s : State) : State := clearSched ⟨some n, none⟩ (fun c => c == a.channel) s

section
variable {n : Nat} {acc : State × Nat} {a : Action}

theorem goAction_parked (parked : (acc.1.chan a.channel).park ≠ none) : goAction n acc a = (acc.1, acc.2 + 1) := by
  unfold goAction
  exact if_pos (by rw [isParked_eq]; exact decide_eq_true parked)

theorem goAction_now (free : (acc.1.chan a.channel).park = none) (zero : a.delay = 0) :
    goAction n acc a = ((startRequest ⟨some n, none⟩ (a.request n) (cleared n a acc.1)).1, acc.2) := by
  unfold goAction
  exact (if_neg (by rw [isParked_eq, free]; simp)).trans (if_pos zero)

theorem goAction_later (free : (acc.1.chan a.channel).park = none) (delayed : a.delay ≠ 0) :
    goAction n acc a = ((cleared n a acc.1).setPlayer { (cleared n a acc.1).player with
      sched := insertSched (cleared n a acc.1).now (a.scheduled n (cleared n a acc.1).now)
        (cleared n a acc.1).player.sched }, acc.2) := by
  unfold goAction
  exact (if_neg (by rw [isParked_eq, free]; simp)).trans (if_neg delayed)

theorem cleared_sched (n : Nat) (a : Action) (s : State) :
    (cleared n a s).player.sched = s.player.sched.filter fun e => !(e.channel == a.channel) := clearSched_sched _ _ s

theorem mem_cleared {s : State} {e : Sched} :
    e ∈ (cleared n a s).player.sched ↔ e ∈ s.player.sched ∧ e.channel ≠ a.channel := by
  rw [cleared_sched, List.mem_filter]
  simp

end

/-! ## The actions so far -/

/-- The action acts: its channel is not parked (R59 step 2). -/
abbrev Action.acts (a : Action) (s : State) : Prop := (s.chan a.channel).park = none

/-- The actions of `l` take an item of cue `m` away from `s` (R19, R66). -/
def takesFrom (l : List Action) (s : State) (m : Nat) : Prop :=
  ∃ a ∈ l, a.acts s ∧ ((∃ x ∈ s.player.sched, x.channel = a.channel ∧ x.owner = m)
    ∨ (a.delay = 0 ∧ s.fadesFor a.channel m))

/-- The state and the skipped count after the actions `l` of cue `n`, from `s` (R59 step 2). -/
structure GoPast (n : Nat) (l : List Action) (s : State) (acc : State × Nat) : Prop where
  played : Played s acc.1
  runs : s.player.Runs acc.1.player
  skipped : acc.2 = l.countP fun a => decide ((s.chan a.channel).park ≠ none)
  other : ∀ c, (s.chan c).park ≠ none ∨ (∀ a ∈ l, a.channel = c → a.delay ≠ 0) → acc.1.chan c = s.chan c
  acted : ∀ a ∈ l, a.acts s → a.delay = 0 → acc.1.chan a.channel = (s.chan a.channel).started s.now (a.request n)
  sched : ∀ e, e ∈ acc.1.player.sched ↔ (∃ a ∈ l, a.acts s ∧ a.delay ≠ 0 ∧ e = a.scheduled n s.now)
    ∨ (e ∈ s.player.sched ∧ ∀ a ∈ l, a.channel = e.channel → (s.chan a.channel).park ≠ none)
  kept : ∀ P : Sched → Bool, (∀ a ∈ l, a.acts s → ∀ e, e.channel = a.channel → P e = false) →
    acc.1.player.sched.filter P = s.player.sched.filter P
  ended : Ended ⟨some n, none⟩ true s acc.1
  flags : Flags (takesFrom l s) s acc.1

section
variable {n : Nat} {l : List Action} {s : State} {acc : State × Nat} {a : Action}

theorem goPast_nil (n : Nat) (s : State) : GoPast n [] s (s, 0) where
  played := .refl s
  runs := .refl _
  skipped := rfl
  other := fun _ _ => rfl
  acted := fun _ h => by cases h
  sched := fun e => by simp
  kept := fun _ _ => rfl
  ended := .refl s
  flags := (Flags.same rfl).congr fun m => by simp [takesFrom]

theorem GoPast.chan_new (h : GoPast n l s acc) (new : ∀ x ∈ l, x.channel ≠ a.channel) :
    acc.1.chan a.channel = s.chan a.channel := h.other a.channel (.inr fun x hx eq => absurd eq (new x hx))

theorem GoPast.mem_channel (h : GoPast n l s acc) (new : ∀ x ∈ l, x.channel ≠ a.channel) {e : Sched}
    (channel : e.channel = a.channel) : e ∈ acc.1.player.sched ↔ e ∈ s.player.sched := by
  rw [h.sched e]
  constructor
  · rintro (⟨x, hx, _, _, rfl⟩ | ⟨mem, _⟩)
    · exact absurd channel (new x hx)
    · exact mem
  · exact fun mem => .inr ⟨mem, fun x hx eq => absurd (eq.trans channel) (new x hx)⟩

theorem takesFrom_concat {m : Nat} : takesFrom (l ++ [a]) s m ↔ takesFrom l s m ∨ (a.acts s
    ∧ ((∃ x ∈ s.player.sched, x.channel = a.channel ∧ x.owner = m) ∨ (a.delay = 0 ∧ s.fadesFor a.channel m))) := by
  simp only [takesFrom, List.mem_append, List.mem_singleton, or_and_right, exists_or, exists_eq_left]

theorem GoPast.parked (h : GoPast n l s acc) (parked : (s.chan a.channel).park ≠ none) (new : ∀ x ∈ l, x.channel ≠ a.channel) :
    GoPast n (l ++ [a]) s (goAction n acc a) := by
  rw [goAction_parked (by rwa [h.chan_new new])]
  refine ⟨h.played, h.runs, ?_, fun c other => h.other c ?_, fun x hx acts zero => ?_, fun e => ?_, fun P out => ?_, h.ended,
    h.flags.congr fun m => ?_⟩
  · rw [List.countP_append, List.countP_singleton, if_pos (decide_eq_true parked), h.skipped]
  · exact other.imp_right fun all x hx => all x (List.mem_append_left _ hx)
  · rcases List.mem_append.mp hx with hx | hx
    · exact h.acted x hx acts zero
    · rw [List.mem_singleton.mp hx] at acts
      exact absurd acts parked
  · refine (h.sched e).trans (or_congr ?_ (and_congr_right fun _ => ?_))
    · simp only [List.mem_append, List.mem_singleton, or_and_right, exists_or, exists_eq_left, Action.acts, parked,
        false_and, or_false]
    · simp only [List.mem_append, List.mem_singleton, or_imp, forall_and, forall_eq]
      exact (and_iff_left fun _ => parked).symm
  · exact h.kept P fun x hx => out x (List.mem_append_left _ hx)
  · rw [takesFrom_concat]
    simp only [Action.acts, parked, false_and, or_false]

/-- What one action that acts does to the state it finds (R59 step 2). -/
structure ActsOn (n : Nat) (a : Action) (u t : State) : Prop where
  played : Played u t
  runs : u.player.Runs t.player
  chan : ∀ c, t.chan c
    = if a.channel = c ∧ a.delay = 0 then (u.chan c).started u.now (a.request n) else u.chan c
  sched : ∀ e, e ∈ t.player.sched ↔ (a.delay ≠ 0 ∧ e = a.scheduled n u.now)
    ∨ (e ∈ u.player.sched ∧ e.channel ≠ a.channel)
  kept : ∀ P : Sched → Bool, (∀ e, e.channel = a.channel → P e = false) →
    t.player.sched.filter P = u.player.sched.filter P
  ended : Ended ⟨some n, none⟩ true u t
  flags : Flags (fun m => (∃ x ∈ u.player.sched, x.channel = a.channel ∧ x.owner = m)
    ∨ (a.delay = 0 ∧ u.fadesFor a.channel m)) u t

theorem cleared_kept {P : Sched → Bool} (out : ∀ e, e.channel = a.channel → P e = false) :
    (cleared n a s).player.sched.filter P = s.player.sched.filter P := by
  rw [cleared_sched, List.filter_filter]
  refine List.filter_congr fun e _ => ?_
  by_cases eq : e.channel = a.channel
  · simp [out e eq]
  · simp [eq]

theorem cleared_flags : Flags (fun m => ∃ x ∈ s.player.sched, x.channel = a.channel ∧ x.owner = m) s (cleared n a s) :=
  (clearSched_flags _ _ s).congr fun m => by simp only [beq_iff_eq]

theorem cleared_ended : Ended ⟨some n, none⟩ true s (cleared n a s) := clearSched_ended rfl _ s

theorem cleared_chan (c : Chan) : (cleared n a s).chan c = s.chan c := clearSched_chan _ _ s c

theorem goAction_acts (free : a.acts acc.1) : ActsOn n a acc.1 (goAction n acc a).1 := by
  have now : (cleared n a acc.1).now = acc.1.now := (clearSched_played _ _ _).now
  by_cases zero : a.delay = 0
  · rw [goAction_now free zero]
    have accounted := startRequest_accounted ⟨some n, none⟩ (a.request n) (cleared n a acc.1)
    have ended := startRequest_ended ⟨some n, none⟩ (a.request n) (cleared n a acc.1)
    refine ⟨(clearSched_played _ _ _).trans (startRequest_played _ _ _), (clearSched_runs _ _ _).trans accounted.toRuns,
      fun c => ?_, fun e => ?_, fun P out => ?_, cleared_ended.trans ended,
      (cleared_flags.trans (startRequest_flags _ _ _) cleared_ended ended).congr fun m => ?_⟩
    · rw [startRequest_chan, cleared_chan, now]
      by_cases eq : a.channel = c <;> simp [Action.request, eq, zero]
    · rw [accounted.sched, mem_cleared]
      simp [zero]
    · rw [accounted.sched, cleared_kept out]
    · simp only [Action.request, State.fadesFor, cleared_chan, zero, true_and]
      rw [and_iff_right free]
  · rw [goAction_later free zero, now]
    refine ⟨(clearSched_played _ _ _).trans (Played.setPlayer _ _),
      (clearSched_runs _ _ _).trans (Player.Runs.withSched _ _), fun c => ?_, fun e => ?_, fun P out => ?_,
      cleared_ended.trans ⟨[], .same rfl rfl rfl rfl rfl rfl⟩, ?_⟩
    · rw [if_neg fun both => zero both.2]
      exact cleared_chan c
    · rw [State.setPlayer_player]
      dsimp only
      rw [mem_insertSched, mem_cleared]
      simp [zero]
    · rw [State.setPlayer_player]
      dsimp only
      rw [insertSched_filter (out _ rfl), cleared_kept out]
    · refine Flags.congr (took := fun m => ∃ x ∈ acc.1.player.sched, x.channel = a.channel ∧ x.owner = m)
        cleared_flags fun m => ?_
      simp [zero]

theorem goAction_count (free : a.acts acc.1) : (goAction n acc a).2 = acc.2 := by
  by_cases zero : a.delay = 0
  · rw [goAction_now free zero]
  · rw [goAction_later free zero]

theorem GoPast.acts (h : GoPast n l s acc) (free : a.acts s) (new : ∀ x ∈ l, x.channel ≠ a.channel) :
    GoPast n (l ++ [a]) s (goAction n acc a) := by
  have here : acc.1.chan a.channel = s.chan a.channel := h.chan_new new
  have free' : a.acts acc.1 := by rwa [Action.acts, here]
  have step := goAction_acts (n := n) free'
  have now := h.played.now
  have past (x : Action) (hx : x ∈ l) : (goAction n acc a).1.chan x.channel = acc.1.chan x.channel := by
    rw [step.chan, if_neg fun both => new x hx both.1.symm]
  refine ⟨h.played.trans step.played, h.runs.trans step.runs, ?_, fun c other => ?_, fun x hx acts zero => ?_, fun e => ?_,
    fun P out => ?_, h.ended.trans step.ended, (h.flags.trans step.flags h.ended step.ended).congr fun m => ?_⟩
  · rw [goAction_count free', h.skipped, List.countP_append, List.countP_singleton,
      if_neg (by rw [show (s.chan a.channel).park = none from free]; simp), Nat.add_zero]
  · rw [step.chan, if_neg ?_]
    · exact h.other c (other.imp_right fun all x hx => all x (List.mem_append_left _ hx))
    · rintro ⟨rfl, zero⟩
      rcases other with parked | delays
      · exact parked free
      · exact delays a (List.mem_append_right _ (List.mem_singleton_self a)) rfl zero
  · rcases List.mem_append.mp hx with hx | hx
    · rw [past x hx]
      exact h.acted x hx acts zero
    · obtain rfl := List.mem_singleton.mp hx
      rw [step.chan, if_pos ⟨rfl, zero⟩, here, now]
  · rw [step.sched e, h.sched e, now]
    constructor
    · rintro (⟨delayed, rfl⟩ | ⟨⟨x, hx, acts, delayed, rfl⟩ | ⟨mem, old⟩, channel⟩)
      · exact .inl ⟨a, List.mem_append_right _ (List.mem_singleton_self a), free, delayed, rfl⟩
      · exact .inl ⟨x, List.mem_append_left _ hx, acts, delayed, rfl⟩
      · refine .inr ⟨mem, fun x hx eq => ?_⟩
        rcases List.mem_append.mp hx with hx | hx
        · exact old x hx eq
        · obtain rfl := List.mem_singleton.mp hx
          exact absurd eq.symm channel
    · rintro (⟨x, hx, acts, delayed, rfl⟩ | ⟨mem, old⟩)
      · rcases List.mem_append.mp hx with hx | hx
        · exact .inr ⟨.inl ⟨x, hx, acts, delayed, rfl⟩, new x hx⟩
        · obtain rfl := List.mem_singleton.mp hx
          exact .inl ⟨delayed, rfl⟩
      · refine .inr ⟨.inr ⟨mem, fun x hx => old x (List.mem_append_left _ hx)⟩, fun eq => ?_⟩
        exact old a (List.mem_append_right _ (List.mem_singleton_self a)) eq.symm free
  · rw [step.kept P (out a (List.mem_append_right _ (List.mem_singleton_self a)) free)]
    exact h.kept P fun x hx => out x (List.mem_append_left _ hx)
  · rw [takesFrom_concat, and_iff_right (show a.acts s from free)]
    refine or_congr_right (or_congr (exists_congr fun x => ?_) (by rw [State.fadesFor, here, State.fadesFor]))
    rw [and_left_comm, and_left_comm (a := x ∈ s.player.sched)]
    exact and_congr_right fun eq => by rw [h.mem_channel new eq]

/-- Every action of a cue whose channels differ has done what R59 step 2 says. -/
theorem goPast (n : Nat) (s : State) {l : List Action} (distinct : (l.map (·.channel)).Nodup) :
    GoPast n l s (l.foldl (goAction n) (s, 0)) := by
  induction l using List.reverseRecOn with
  | nil => exact goPast_nil n s
  | append_singleton l a ih =>
    rw [List.map_append, List.nodup_append] at distinct
    obtain ⟨before, _, apart⟩ := distinct
    have new : ∀ x ∈ l, x.channel ≠ a.channel := fun x hx =>
      apart x.channel (List.mem_map_of_mem hx) a.channel (by simp)
    rw [List.foldl_append, List.foldl_cons, List.foldl_nil]
    by_cases free : a.acts s
    · exact (ih before).acts free new
    · exact (ih before).parked free new

/-! ## The order of the list -/

/-- The entry stands on a channel that an action of `l` acts on. -/
def actedOn (l : List Action) (s : State) (e : Sched) : Prop := ∃ a ∈ l, a.channel = e.channel ∧ a.acts s

/-- Entries stand in order of the time left, and of those with equal time left the new ones stand behind, in the order of
their channels (R62, R63). -/
def GoOrder (l : List Action) (s : State) (x y : Sched) : Prop :=
  x.left.leftAt s.now < y.left.leftAt s.now ∨ (x.left.leftAt s.now = y.left.leftAt s.now
    ∧ (actedOn l s x → actedOn l s y ∧ x.channel < y.channel))

theorem actedOn_concat {e : Sched} (other : e.channel ≠ a.channel) : actedOn (l ++ [a]) s e ↔ actedOn l s e := by
  simp only [actedOn, List.mem_append, List.mem_singleton, or_and_right, exists_or, exists_eq_left]
  exact or_iff_left fun both => other both.1.symm

/-- The scheduled start list after the actions, in channel order, of a list that stood in order (R62, R63). -/
theorem goPast_order (n : Nat) (s : State) {l : List Action} (ascending : (l.map (·.channel)).Pairwise (· < ·))
    (sorted : s.player.sched.Pairwise fun x y => x.left.leftAt s.now ≤ y.left.leftAt s.now) :
    (l.foldl (goAction n) (s, 0)).1.player.sched.Pairwise (GoOrder l s) := by
  induction l using List.reverseRecOn with
  | nil =>
    refine sorted.imp fun {x y} le => ?_
    rcases Nat.lt_or_eq_of_le le with lt | eq
    · exact .inl lt
    · exact .inr ⟨eq, fun ⟨a, ha, _⟩ => by cases ha⟩
  | append_singleton l a ih =>
    rw [List.map_append, List.pairwise_append] at ascending
    obtain ⟨before, _, below⟩ := ascending
    have lower : ∀ x ∈ l, x.channel < a.channel := fun x hx =>
      below x.channel (List.mem_map_of_mem hx) a.channel (by simp)
    have past := goPast n s (before.imp ne_of_lt)
    have stands := ih before
    rw [List.foldl_append, List.foldl_cons, List.foldl_nil]
    generalize l.foldl (goAction n) (s, 0) = acc at past stands
    have here : acc.1.chan a.channel = s.chan a.channel := past.chan_new fun x hx => ne_of_lt (lower x hx)
    by_cases free : a.acts s
    · have free' : a.acts acc.1 := by rwa [Action.acts, here]
      have others : (cleared n a acc.1).player.sched.Pairwise (GoOrder (l ++ [a]) s) := by
        rw [cleared_sched]
        refine (stands.filter _).imp_of_mem fun {x y} hx hy order => ?_
        have hx' : x.channel ≠ a.channel := by simpa using (List.mem_filter.mp hx).2
        have hy' : y.channel ≠ a.channel := by simpa using (List.mem_filter.mp hy).2
        rwa [GoOrder, actedOn_concat hx', actedOn_concat hy']
      by_cases zero : a.delay = 0
      · rw [goAction_now free' zero, (startRequest_accounted _ _ _).sched]
        exact others
      · have now : (cleared n a acc.1).now = s.now := (clearSched_played _ _ _).now.trans past.played.now
        rw [goAction_later free' zero, now]
        refine insertSched_pairwise_of others ?_ (fun x hx le => ?_) fun x hx lt => .inl lt
        · exact others.imp fun {x y} order => order.elim le_of_lt fun both => both.1.le
        · rcases Nat.lt_or_eq_of_le le with lt | eq
          · exact .inl lt
          · refine .inr ⟨eq, fun acted => ⟨⟨a, by simp, rfl, free⟩, ?_⟩⟩
            obtain ⟨b, hb, channel, _⟩ := (actedOn_concat (mem_cleared.mp hx).2).mp acted
            exact channel ▸ lower b hb
    · rw [goAction_parked (by rwa [here])]
      refine stands.imp fun {x y} order => ?_
      have same (e : Sched) : actedOn (l ++ [a]) s e ↔ actedOn l s e := by
        simp only [actedOn, List.mem_append, List.mem_singleton, or_and_right, exists_or, exists_eq_left]
        exact or_iff_left fun both => free both.2
      rwa [GoOrder, same, same]

end

end Sys2Proof.Machine
end

section
/-! SUPPORT. The GO operation as a whole: the cue that is chosen, the thaw before it, and the player, the live cue list and the
reports after it (R56 to R60). -/

namespace Sys2Proof.Machine

/-! ## Choosing the cue -/

/-- The action as a GO operation of this kind runs it (R58). -/
def GoKind.action (k : GoKind) (s : State) (a : Action) : Action := { a with time := k.timeOf s a, delay := k.delayOf a }

/-- The cue as a GO operation of this kind runs it (R58). -/
def GoKind.cue (k : GoKind) (s : State) (q : Cue) : Cue := if k = .back then q.forBack s.working.params.backTime else q

section
variable (k : GoKind) (s : State) (q : Cue)

@[simp] theorem GoKind.cue_number : (k.cue s q).number = q.number := by
  unfold GoKind.cue
  split <;> rfl

theorem GoKind.cue_actions : (k.cue s q).actions = q.actions.map (k.action s) := by
  unfold GoKind.cue GoKind.action GoKind.timeOf GoKind.delayOf
  split
  · rfl
  · exact (List.map_id' _).symm

theorem GoKind.cue_follow : (k.cue s q).follow = if k = .back then none else q.follow := by
  unfold GoKind.cue
  split <;> rfl

theorem GoKind.cue_channels : (k.cue s q).actions.map (·.channel) = q.actions.map (·.channel) := by
  rw [GoKind.cue_actions, List.map_map]
  rfl

end

section
variable {k : GoKind} {q : Cue} {s : State} {n : Nat}

theorem CueListLaw.inOrder (law : CueListLaw s.working) : CuesInOrder s.working.cues := by
  obtain ⟨_, _, ascending, _⟩ := law
  exact ascending

theorem CueListLaw.number (law : CueListLaw s.working) (listed : q ∈ s.working.cues) :
    1 ≤ q.number ∧ q.number ≤ 9999 := by
  obtain ⟨_, _, _, each⟩ := law
  obtain ⟨low, high, _⟩ := each q listed
  exact ⟨low, high⟩

theorem CueListLaw.channels (law : CueListLaw s.working) (listed : q ∈ s.working.cues) :
    (q.actions.map (·.channel)).Pairwise (· < ·) := by
  obtain ⟨_, _, _, each⟩ := law
  obtain ⟨_, _, _, _, order, _⟩ := each q listed
  exact order

/-- A cue stands in the list between those of smaller and those of greater number (R31). -/
theorem CueListLaw.split_at (law : CueListLaw s.working) (listed : q ∈ s.working.cues) :
    ∃ as bs, s.working.cues = as ++ q :: bs ∧ (∀ a ∈ as, a.number < q.number) ∧ ∀ b ∈ bs, q.number < b.number := by
  obtain ⟨as, bs, eq⟩ := List.append_of_mem listed
  have ascending := law.ascending
  rw [eq, List.map_append, List.map_cons, List.pairwise_append, List.pairwise_cons] at ascending
  obtain ⟨_, ⟨after, _⟩, before⟩ := ascending
  exact ⟨as, bs, eq, fun a ha => before _ (List.mem_map_of_mem ha) _ List.mem_cons_self,
    fun b hb => after _ (List.mem_map_of_mem hb)⟩

theorem nextCue_of_chosen (law : CueListLaw s.working) (listed : q ∈ s.working.cues) (chosen : Chosen .go q s) :
    s.working.nextCue s.player.position = some q := by
  obtain ⟨above, least⟩ := chosen
  obtain ⟨as, bs, eq, before, _⟩ := law.split_at listed
  refine List.find?_eq_some_iff_append.mpr ⟨decide_eq_true above, as, bs, eq, fun a ha => ?_⟩
  have lt := before a ha
  have ge := least a (by rw [eq]; exact List.mem_append_left _ ha)
  simp
  omega

theorem prevCue_of_chosen (law : CueListLaw s.working) (listed : q ∈ s.working.cues) (chosen : Chosen .back q s) :
    s.working.prevCue s.player.position = some q := by
  obtain ⟨below, greatest⟩ := chosen
  obtain ⟨as, bs, eq, _, after⟩ := law.split_at listed
  refine List.find?_eq_some_iff_append.mpr ⟨decide_eq_true below, bs.reverse, as.reverse, by simp [eq], fun b hb => ?_⟩
  have gt := after b (List.mem_reverse.mp hb)
  have le := greatest b (by rw [eq]; simp [List.mem_reverse.mp hb])
  simp
  omega

theorem chooseCue_chosen (law : CueListLaw s.working) (listed : q ∈ s.working.cues) (chosen : Chosen k q s) :
    chooseCue k s = .ok (k.cue s q) := by
  cases k with
  | go =>
    dsimp only [chooseCue]
    rw [nextCue_of_chosen law listed chosen]
    rfl
  | goTo n =>
    obtain rfl : n = q.number := chosen
    obtain ⟨low, high⟩ := law.number listed
    dsimp only [chooseCue]
    rw [if_neg (by omega), findCue_of_mem law.inOrder listed]
    rfl
  | back =>
    dsimp only [chooseCue]
    rw [prevCue_of_chosen law listed chosen]
    rfl

theorem chooseCue_go_none (last : ∀ q ∈ s.working.cues, q.number ≤ s.player.position) :
    chooseCue .go s = .error .endOfList := by
  have none_ : s.working.nextCue s.player.position = none :=
    List.find?_eq_none.mpr fun x hx => by simpa using last x hx
  dsimp only [chooseCue]
  rw [none_]

theorem chooseCue_back_none (first : ∀ q ∈ s.working.cues, s.player.position ≤ q.number) :
    chooseCue .back s = .error .endOfList := by
  have none_ : s.working.prevCue s.player.position = none :=
    List.find?_eq_none.mpr fun x hx => by simpa using first x (List.mem_reverse.mp hx)
  dsimp only [chooseCue]
  rw [none_]

theorem chooseCue_goTo_range (bad : n < 1 ∨ 9999 < n) : chooseCue (.goTo n) s = .error .badValue := if_pos bad

theorem chooseCue_goTo_absent (low : 1 ≤ n) (high : n ≤ 9999) (absent : ∀ q ∈ s.working.cues, q.number ≠ n) :
    chooseCue (.goTo n) s = .error .notFound := by
  dsimp only [chooseCue]
  rw [if_neg (by omega), findCue_eq_none.mpr absent]

/-! ## The thaw before it -/

/-- What the thaw before a GO makes of a fade context (R9, R59 step 1). -/
def State.thawFade (s : State) (f : Fade) : Fade := if s.player.state = .paused then f.thaw s.now else f

/-- What the thaw before a GO makes of a scheduled start (R59 step 1). -/
def State.thawSched (s : State) (e : Sched) : Sched :=
  if s.player.state = .paused then { e with left := ⟨e.left.remaining, s.now⟩ } else e

@[simp] theorem State.thawSched_channel (s : State) (e : Sched) : (s.thawSched e).channel = e.channel := by
  unfold State.thawSched
  split <;> rfl

@[simp] theorem State.thawSched_owner (s : State) (e : Sched) : (s.thawSched e).owner = e.owner := by
  unfold State.thawSched
  split <;> rfl

@[simp] theorem State.thawFade_owner (s : State) (f : Fade) : (s.thawFade f).owner = f.owner := by
  unfold State.thawFade
  split
  · exact Fade.thaw_owner _ f
  · rfl

theorem goThaw_chan (c : Chan) : (goThaw s).chan c = { s.chan c with fade := (s.chan c).fade.map s.thawFade } := by
  unfold goThaw State.thawFade
  split
  · exact FadeEngine.mapFades_at _ _ c
  · rw [Option.map_id']

theorem goThaw_sched : (goThaw s).player.sched = s.player.sched.map s.thawSched := by
  unfold goThaw State.thawSched
  split
  · rfl
  · exact (List.map_id' _).symm

theorem goThaw_live : (goThaw s).player.live = s.player.live := by
  unfold goThaw
  split <;> rfl

theorem goThaw_tags : (goThaw s).fade.tags = s.fade.tags := by
  unfold goThaw
  split <;> rfl

theorem goThaw_report : (goThaw s).report = s.report := by
  unfold goThaw
  split <;> rfl

theorem goThaw_arm : (goThaw s).arm = s.arm := by
  unfold goThaw
  split <;> rfl

theorem goThaw_resumeTo (law : PositionLaw s) : (goThaw s).player.resumeTo = none := by
  obtain ⟨_, held⟩ := law
  unfold goThaw
  split
  · rfl
  · next running => simpa using mt held.mp running

theorem goThaw_owned : (goThaw s).owned n = s.owned n := by
  unfold goThaw
  split
  · rw [State.owned_eq, State.owned_eq]
    exact congrArg₂ _ (FadeEngine.holding_mapFades _ (Fade.thaw_owner s.now) _ _)
      (schedOf_map n s.player _ fun _ => rfl)
  · rfl

theorem goThaw_liveLaw (law : LiveLaw s) : LiveLaw (goThaw s) := by
  unfold LiveLaw
  simp only [goThaw_live, goThaw_owned]
  exact law

theorem goThaw_park (c : Chan) : ((goThaw s).chan c).park = (s.chan c).park := by rw [goThaw_chan]

theorem goThaw_level (c : Chan) : ((goThaw s).chan c).level = (s.chan c).level := by rw [goThaw_chan]

theorem goThaw_fadesFor (c : Chan) : (goThaw s).fadesFor c n ↔ ∃ f, (s.chan c).fade = some f ∧ f.owner = .cue n := by
  unfold State.fadesFor
  rw [goThaw_chan]
  simp only [Option.map_eq_some_iff]
  constructor
  · rintro ⟨_, ⟨f, hf, rfl⟩, owner⟩
    exact ⟨f, hf, by rwa [State.thawFade_owner] at owner⟩
  · rintro ⟨f, hf, owner⟩
    exact ⟨_, ⟨f, hf, rfl⟩, by rwa [State.thawFade_owner]⟩

/-! ## What the cue owns -/

theorem owned_pos : 1 ≤ s.owned n ↔ (∃ c, s.fadesFor c n) ∨ ∃ e ∈ s.player.sched, e.owner = n := by
  have fades : 1 ≤ s.fade.holding (.cue n) ↔ ∃ c, s.fadesFor c n := by
    rw [FadeEngine.holding_pos]
    refine exists_congr fun c => ?_
    unfold Channel.holds State.fadesFor State.chan
    cases (Table.at s.fade.chans c).fade <;> simp
  have scheds : 1 ≤ s.player.schedOf n ↔ ∃ e ∈ s.player.sched, e.owner = n := by
    unfold Player.schedOf
    rw [Nat.succ_le_iff, List.countP_pos_iff]
    simp
  rw [← fades, ← scheds, State.owned_eq]
  omega

theorem owned_of_takesFrom {l : List Action} (takes : takesFrom l s n) : 1 ≤ s.owned n := by
  obtain ⟨a, _, _, ⟨x, hx, _, owner⟩ | ⟨_, fades⟩⟩ := takes
  · exact owned_pos.mpr (.inr ⟨x, hx, owner⟩)
  · exact owned_pos.mpr (.inl ⟨_, fades⟩)

/-- A cue of which the actions take nothing keeps what it owns. -/
theorem GoPast.owned_of_not_takes {m : Nat} {l : List Action} {acc : State × Nat} (h : GoPast m l s acc)
    (spared : ¬ takesFrom l s n) (owns : 1 ≤ s.owned n) : 1 ≤ acc.1.owned n := by
  rcases owned_pos.mp owns with ⟨c, fades⟩ | ⟨e, he, owner⟩
  · refine owned_pos.mpr (.inl ⟨c, ?_⟩)
    rw [State.fadesFor, h.other c, ← State.fadesFor]
    · exact fades
    · by_contra acted
      push Not at acted
      obtain ⟨free, a, ha, rfl, zero⟩ := acted
      exact spared ⟨a, ha, free, .inr ⟨zero, fades⟩⟩
  · refine owned_pos.mpr (.inr ⟨e, (h.sched e).mpr (.inr ⟨he, fun a ha same free => ?_⟩), owner⟩)
    exact spared ⟨a, ha, free, .inl ⟨e, he, same.symm, owner⟩⟩

/-! ## The settling -/

/-- The cut flag of the live entry of cue `n`, clear where it has none (R59 step 3). -/
def Player.wasCut (n : Nat) (p : Player) : Bool :=
  match p.entry n with
  | some e => e.cut
  | none => false

theorem Player.settleEntry_live (n owned : Nat) (p : Player) : (p.settleEntry n owned).live
    = (p.live.filter fun e => e.cue != n) ++ if owned = 0 then [] else [⟨n, owned, p.wasCut n⟩] := by
  unfold Player.settleEntry
  dsimp only
  split
  · exact (List.append_nil _).symm
  · rfl

theorem goSettle_offers (q : Cue) (source : Source) (skipped : Nat) (s : State) :
    Offers ((if source = .host then [] else [.cueStarted q.number skipped source])
      ++ if s.owned q.number = 0 then [.cueDone q.number (howOf (s.player.wasCut q.number))] else []) s
      (goSettle q source skipped s) := by
  have started (u : State) : Offers (if source = .host then [] else [.cueStarted q.number skipped source]) u
      (if source = .host then u else offer (.cueStarted q.number skipped source) u) := by
    split
    · exact .nil rfl rfl
    · exact offer_offers (by simp) u
  have settled := (started (s.setPlayer ((s.player.settleEntry q.number (s.owned q.number)).settleState s.now q))).congr
    (s' := s) rfl rfl rfl rfl rfl rfl
  unfold goSettle
  dsimp only
  refine settled.append ?_ ?_ ?_
  · split
    · exact offerCueDone_offers _ _ _
    · exact .nil rfl rfl
  · split <;> rfl
  · split <;> rfl

end

end Sys2Proof.Machine
end

section
/-! SUPPORT. What a started GO, GO_TO or BACK leaves (R59), and that the chosen cue is the one started. -/

namespace Sys2Proof.Machine

/-- The state and the skipped count after step 2 of R59. -/
def goActed (k : GoKind) (q : Cue) (s : State) : State × Nat :=
  (k.cue s q).actions.foldl (goAction q.number) (goThaw s, 0)

/-- The state after a GO operation, whatever chose its cue. -/
def goneTo (k : GoKind) (q : Cue) (source : Source) (s : State) : State :=
  goSettle (k.cue s q) source (goActed k q s).2 (goActed k q s).1

section
variable {k : GoKind} {q : Cue} {source : Source} {s : State} {acc : State × Nat} {n : Nat}

theorem goOperation_eq : goOperation (k.cue s q) source s = (goneTo k q source s, (goActed k q s).2) := by
  unfold goneTo goActed
  rw [← GoKind.cue_number k s q]
  rfl

theorem goActed_past (ascending : (q.actions.map (·.channel)).Pairwise (· < ·)) :
    GoPast q.number (k.cue s q).actions (goThaw s) (goActed k q s) :=
  goPast q.number (goThaw s) (by rw [GoKind.cue_channels]; exact ascending.imp ne_of_lt)

theorem mem_cue_actions {p : Action → Prop} :
    (∃ a ∈ (k.cue s q).actions, p a) ↔ ∃ a ∈ q.actions, p (k.action s a) := by
  rw [GoKind.cue_actions]
  simp only [List.mem_map, exists_exists_and_eq_and]

theorem forall_cue_actions {p : Action → Prop} :
    (∀ a ∈ (k.cue s q).actions, p a) ↔ ∀ a ∈ q.actions, p (k.action s a) := by
  rw [GoKind.cue_actions]
  exact List.forall_mem_map

@[simp] theorem goThaw_now (s : State) : (goThaw s).now = s.now := (goThaw_played s).now

theorem GoPast.skipped_eq (h : GoPast n (k.cue s q).actions (goThaw s) acc) : acc.2 = s.skipped q := by
  rw [h.skipped, GoKind.cue_actions, List.countP_map]
  unfold State.skipped
  congr 1
  funext a
  simp only [Function.comp, GoKind.action, goThaw_park]

theorem takesFrom_iff : takesFrom (k.cue s q).actions (goThaw s) n ↔ GoTakes k q n s := by
  unfold takesFrom GoTakes
  rw [mem_cue_actions]
  simp only [Action.acts, goThaw_park, goThaw_fadesFor, goThaw_sched, List.mem_map, exists_exists_and_eq_and,
    State.thawSched_channel, State.thawSched_owner]
  rfl

/-- What the actions do to channels and scheduled starts (R59 step 2). -/
theorem GoPast.goActs (h : GoPast q.number (k.cue s q).actions (goThaw s) acc) : GoActs k q s acc.1 := by
  have acted (a : Action) (ha : a ∈ q.actions) (free : (s.chan a.channel).park = none) (zero : k.delayOf a = 0) :
      acc.1.chan a.channel = ((goThaw s).chan a.channel).started s.now ((k.action s a).request q.number) := by
    have here := forall_cue_actions.mp h.acted a ha ((goThaw_park _).trans free) zero
    rwa [goThaw_now] at here
  refine ⟨fun c other => ?_, fun a ha free zero at_once => ?_, fun a ha free zero timed => ?_, fun e => ?_⟩
  · rw [h.other c, goThaw_chan]
    · rfl
    · rw [goThaw_park]
      exact other.imp_right forall_cue_actions.mpr
  · rw [acted a ha free zero, Channel.started_set ((goThaw_park _).trans free) at_once]
    rfl
  · rw [acted a ha free zero, Channel.started_fade ((goThaw_park _).trans free) timed, goThaw_level]
    rfl
  · rw [h.sched e, mem_cue_actions, goThaw_sched, List.mem_map, forall_cue_actions]
    simp only [Action.acts, goThaw_park, goThaw_now]
    refine or_congr Iff.rfl ⟨?_, ?_⟩
    · rintro ⟨⟨x, hx, rfl⟩, spared⟩
      exact ⟨x, hx, rfl, fun a ha same => spared a ha (same.trans (s.thawSched_channel x).symm)⟩
    · rintro ⟨x, hx, rfl, spared⟩
      exact ⟨⟨x, hx, rfl⟩, fun a ha same => spared a ha (same.trans (s.thawSched_channel x))⟩

theorem GoActs.congr {t t' : State} (h : GoActs k q s t) (chan : ∀ c, t'.chan c = t.chan c)
    (sched : t'.player.sched = t.player.sched) : GoActs k q s t' := by
  unfold GoActs
  simp only [chan, sched]
  exact h

/-! ## Channels, lists and reports -/

theorem goneTo_fade : (goneTo k q source s).fade = (goActed k q s).1.fade := goSettle_fade _ _ _ _

theorem goneTo_player : (goneTo k q source s).player
    = ((goActed k q s).1.player.settleEntry q.number ((goActed k q s).1.owned q.number)).settleState
      (goActed k q s).1.now (k.cue s q) := by
  unfold goneTo
  rw [goSettle_player, GoKind.cue_number]

theorem goneTo_sched : (goneTo k q source s).player.sched = (goActed k q s).1.player.sched := by rw [goneTo_player]; rfl

theorem goneTo_chan (c : Chan) : (goneTo k q source s).chan c = (goActed k q s).1.chan c := by
  unfold State.chan
  rw [goneTo_fade]

theorem goneTo_owned : (goneTo k q source s).owned n = (goActed k q s).1.owned n := by
  rw [State.owned_eq, State.owned_eq, goneTo_fade, Player.schedOf, goneTo_sched]
  rfl

theorem goneTo_live : (goneTo k q source s).player.live
    = ((goActed k q s).1.player.live.filter fun e => e.cue != q.number)
      ++ if (goActed k q s).1.owned q.number = 0 then []
        else [⟨q.number, (goActed k q s).1.owned q.number, (goActed k q s).1.player.wasCut q.number⟩] := by
  rw [goneTo_player]
  exact Player.settleEntry_live _ _ _

theorem goneTo_entry : (∃ e ∈ (goneTo k q source s).player.live, e.cue = q.number)
    ↔ (goActed k q s).1.owned q.number ≠ 0 := by
  rw [goneTo_live]
  constructor
  · rintro ⟨e, he, same⟩ zero
    rw [if_pos zero, List.append_nil, List.mem_filter] at he
    simp [same] at he
  · intro some_
    rw [if_neg some_]
    exact ⟨_, List.mem_append_right _ (List.mem_singleton_self _), rfl⟩

theorem goneTo_played : Played s (goneTo k q source s) := by
  have played := goOperation_played (k.cue s q) source s
  rwa [goOperation_eq] at played

theorem goneTo_acts (ascending : (q.actions.map (·.channel)).Pairwise (· < ·)) :
    GoActs k q s (goneTo k q source s) :=
  (goActed_past ascending).goActs.congr goneTo_chan goneTo_sched

theorem GoPast.mem_live (h : GoPast n (k.cue s q).actions (goThaw s) acc) :
    (∃ e ∈ acc.1.player.live, e.cue = n) ↔ ∃ e ∈ s.player.live, e.cue = n := by
  obtain ⟨l, ends⟩ := h.ended
  rw [ends.mem_live, goThaw_live]
  refine and_iff_left fun how mem => ?_
  rcases ends.reports _ mem with ⟨e, _, free, eq⟩ | ⟨b, _, _, eq⟩
  · exact free (congrArg some (Report.cueDone.inj eq).1)
  · cases eq

theorem Player.wasCut_of_absent {p : Player} (absent : ¬ ∃ e ∈ p.live, e.cue = n) : p.wasCut n = false := by
  unfold Player.wasCut
  split
  · next e he => exact absurd ⟨e, Player.entry_some he⟩ absent
  · rfl

/-- The flag of the cue's entry before the settling (R59 step 3, R71). -/
theorem GoPast.wasCut (h : GoPast n (k.cue s q).actions (goThaw s) acc) (law : LiveLaw s) :
    acc.1.player.wasCut n = true ↔ (∃ x ∈ s.player.live, x.cue = n ∧ x.cut = true) ∨ GoTakes k q n s := by
  by_cases old : ∃ e ∈ acc.1.player.live, e.cue = n
  · have distinct : ((goThaw s).player.live.map (·.cue)).Nodup := by
      rw [goThaw_live]
      exact law.1
    unfold Player.wasCut
    split
    · next e he =>
      obtain ⟨mem, rfl⟩ := Player.entry_some he
      have flag := h.flags distinct e mem
      rwa [goThaw_live, takesFrom_iff] at flag
    · next absent =>
      obtain ⟨e, he, same⟩ := old
      exact absurd same (Player.entry_none absent e he)
  · rw [Player.wasCut_of_absent old]
    refine iff_of_false Bool.false_ne_true ?_
    rw [h.mem_live] at old
    rintro (⟨x, hx, same, flag⟩ | takes)
    · exact absurd ⟨x, hx, same⟩ old
    · obtain ⟨_, _, complete⟩ := goThaw_liveLaw law
      have entry := complete n (owned_of_takesFrom (takesFrom_iff.mpr takes))
      rw [goThaw_live] at entry
      exact absurd entry old

/-- The live cue list after a GO operation (R59 step 3). -/
theorem goneTo_goLive (ascending : (q.actions.map (·.channel)).Pairwise (· < ·)) : GoLive k q s (goneTo k q source s) := by
  have past := goActed_past (k := k) (s := s) ascending
  refine ⟨⟨(goActed k q s).1.player.live.filter fun e => e.cue != q.number, (goActed k q s).1.player.wasCut q.number, ?_, ?_⟩,
    fun law e he => ?_⟩
  · rw [goneTo_owned]
    exact goneTo_live
  · have kept := (past.ended.live_sublist).filter fun n => n != q.number
    rwa [goThaw_live, List.filter_map] at kept
  · rw [goneTo_live] at he
    rcases List.mem_append.mp he with he | he
    · have flag := past.flags (by rw [goThaw_live]; exact law.1) e (List.mem_of_mem_filter he)
      rwa [goThaw_live, takesFrom_iff] at flag
    · split at he
      · cases he
      · rw [List.mem_singleton.mp he]
        exact past.wasCut law

/-- How the cue ended that owns nothing: CUT if it owned something before, which the operation then took away. -/
theorem goActed_how (ascending : (q.actions.map (·.channel)).Pairwise (· < ·)) (law : LiveLaw s)
    (gone : (goActed k q s).1.owned q.number = 0) : howOf ((goActed k q s).1.player.wasCut q.number)
      = if ∃ e ∈ s.player.live, e.cue = q.number then .cut else .completed := by
  have past := goActed_past (k := k) (s := s) ascending
  by_cases old : ∃ e ∈ s.player.live, e.cue = q.number
  · obtain ⟨e, he, same⟩ := old
    obtain ⟨pos, eq⟩ := law.2.1 e he
    have owns : 1 ≤ (goThaw s).owned q.number := by
      rw [goThaw_owned, ← same, ← eq]
      exact pos
    have takes : takesFrom (k.cue s q).actions (goThaw s) q.number := by
      by_contra spared
      have := past.owned_of_not_takes spared owns
      omega
    rw [(past.wasCut law).mpr (.inr (takesFrom_iff.mp takes)), if_pos ⟨e, he, same⟩]
    rfl
  · rw [Player.wasCut_of_absent (mt past.mem_live.mp old), if_neg old]
    rfl

/-- What a GO operation offers (R59 step 7, R60). -/
theorem goneTo_reports (ascending : (q.actions.map (·.channel)).Pairwise (· < ·)) :
    GoReports q source s (goneTo k q source s) := by
  have past := goActed_past (k := k) (s := s) ascending
  obtain ⟨l, ends⟩ := past.ended
  refine ⟨l, if ∃ e ∈ (goneTo k q source s).player.live, e.cue = q.number then
    (if ∃ e ∈ s.player.live, e.cue = q.number then .cut else .completed)
    else howOf ((goActed k q s).1.player.wasCut q.number), ?_, fun law => ?_, ?_⟩
  · refine ends.cuts.congr goThaw_live.symm (fun b _ => by rw [goThaw_tags]) (fun e other => ?_) fun b _ => by rw [goneTo_fade]
    have ne : e.cue ≠ q.number := fun same => other (congrArg some same.symm)
    rw [goneTo_live, List.mem_append, List.mem_filter]
    constructor
    · rintro (⟨mem, _⟩ | mem)
      · exact mem
      · split at mem
        · cases mem
        · exact absurd (by rw [List.mem_singleton.mp mem]) ne
    · exact fun mem => .inl ⟨mem, by simpa using ne⟩
  · split
    · rfl
    · next gone => exact goActed_how ascending law (by_contra fun some_ => gone (goneTo_entry.mpr some_))
  · have before : Offers l s (goActed k q s).1 :=
      ends.offers.congr goThaw_report.symm (by rw [goThaw_arm]) (goThaw_now s).symm (goThaw_played s).working.symm rfl rfl
    have after := goSettle_offers (k.cue s q) source (goActed k q s).2 (goActed k q s).1
    have both := before.append after (past.played.now.trans (goThaw_now s))
      (past.played.working.trans (goThaw_played s).working)
    rw [← goneTo, GoKind.cue_number, past.skipped_eq, ← List.append_assoc] at both
    by_cases gone : (goActed k q s).1.owned q.number = 0
    · rw [if_pos gone] at both
      have absent : ¬ ∃ e ∈ (goneTo k q source s).player.live, e.cue = q.number := fun entry => goneTo_entry.mp entry gone
      rw [if_neg absent, if_neg absent]
      exact both
    · rw [if_neg gone] at both
      rw [if_pos (goneTo_entry.mpr gone)]
      exact both

/-- A GO, GO_TO or BACK starts its cue as R59 says. -/
theorem goneTo_starts (ascending : (q.actions.map (·.channel)).Pairwise (· < ·)) (position : PositionLaw s) :
    GoStarts k q source s (goneTo k q source s) := by
  have past := goActed_past (k := k) (s := s) ascending
  have now : (goActed k q s).1.now = s.now := past.played.now.trans (goThaw_now s)
  have player := goneTo_player (k := k) (q := q) (source := source) (s := s)
  refine ⟨?_, ?_, ?_, ?_, goneTo_acts ascending, goneTo_goLive ascending, goneTo_reports ascending, goneTo_played.only⟩
  · rw [player]
    exact GoKind.cue_number k s q
  · rw [player]
    exact past.runs.resumeTo.trans (goThaw_resumeTo position)
  · rw [player]
    dsimp only [Player.settleState]
    rw [GoKind.cue_follow, now]
    split <;> rfl
  · rw [player]
    rfl

/-- The chosen cue is the one a request starts (R55 to R59). -/
theorem goRequest_chosen (law : CueListLaw s.working) (listed : q ∈ s.working.cues) (chosen : Chosen k q s) :
    goRequest k source s = (goneTo k q source s, .started q.number (s.skipped q)) := by
  rw [goRequest_started k source s _ (chooseCue_chosen law listed chosen), goOperation_eq, GoKind.cue_number,
    (goActed_past (law.channels listed)).skipped_eq]

end

end Sys2Proof.Machine
end

section
/-! SUPPORT. GO, GO_TO and BACK of the node (R55 to R61). -/

namespace Sys2Proof.Machine

section
variable {k : GoKind} {q : Cue} {source : Source} {s u t : State}

/-! ## The scheduled start list -/

theorem goneTo_sched_kept (ascending : (q.actions.map (·.channel)).Pairwise (· < ·)) {P : Sched → Bool}
    (out : ∀ a ∈ q.actions, (s.chan a.channel).park = none → ∀ e : Sched, e.channel = a.channel → P e = false)
    (same : ∀ e, P (s.thawSched e) = P e) :
    (goneTo k q source s).player.sched.filter P = (s.player.sched.filter P).map s.thawSched := by
  have kept := (goActed_past (k := k) (s := s) ascending).kept P (forall_cue_actions.mpr fun a ha free =>
    out a ha ((goThaw_park _).symm.trans free))
  rw [goneTo_sched, kept, goThaw_sched, List.filter_map]
  exact congrArg (List.map _) (List.filter_congr fun e _ => same e)

/-- The thawed list stands in order of the time left (R62, R63). -/
theorem goThaw_sorted (law : SchedLaw s) :
    (goThaw s).player.sched.Pairwise fun x y => x.left.leftAt s.now ≤ y.left.leftAt s.now := by
  obtain ⟨_, order⟩ := law
  rw [goThaw_sched, List.pairwise_map]
  split at order
  · next paused =>
    refine order.imp fun {x y} le => ?_
    simpa [State.thawSched, paused, Countdown.leftAt] using le
  · next running =>
    refine order.2.imp fun {x y} le => ?_
    simpa [State.thawSched, running] using le

theorem goneTo_order (ascending : (q.actions.map (·.channel)).Pairwise (· < ·)) (law : SchedLaw s) :
    (goneTo k q source s).player.sched.Pairwise (GoOrder (k.cue s q).actions (goThaw s)) := by
  rw [goneTo_sched]
  refine goPast_order q.number (goThaw s) (by rwa [GoKind.cue_channels]) ?_
  rw [goThaw_now]
  exact goThaw_sorted law

theorem actedOn_iff {e : Sched} : actedOn (k.cue s q).actions (goThaw s) e
    ↔ (q.actions.any fun a => decide (a.channel = e.channel ∧ (s.chan a.channel).park = none)) = true := by
  unfold actedOn
  rw [mem_cue_actions, List.any_eq_true]
  simp only [Action.acts, goThaw_park, decide_eq_true_eq]
  rfl

/-! ## The messages -/

theorem Chosen.congr (chosen : Chosen k q s) (position : u.player.position = s.player.position)
    (working : u.working = s.working) : Chosen k q u := by
  unfold Chosen
  rw [position, working]
  exact chosen

theorem PositionLaw.congr (law : PositionLaw s) (position : u.player.position = s.player.position)
    (state : u.player.state = s.player.state) (resumeTo : u.player.resumeTo = s.player.resumeTo) : PositionLaw u := by
  unfold PositionLaw
  rw [position, state, resumeTo]
  exact law

theorem PositionLaw.taken (law : PositionLaw s) : PositionLaw s.taken :=
  law.congr (by rw [taken_player]) (by rw [taken_player]) (by rw [taken_player])

theorem SchedLaw.taken (law : SchedLaw s) : SchedLaw s.taken := by
  unfold SchedLaw
  rw [taken_player, taken_now]
  exact law

theorem skipped_taken : s.taken.skipped q = s.skipped q := by
  unfold State.skipped
  simp only [taken_chan]

theorem GoActs.of_taken (h : GoActs k q s.taken t) : GoActs k q s t := by
  unfold GoActs GoKind.timeOf at h ⊢
  simp only [taken_chan, taken_player, taken_now, taken_working] at h
  exact h

theorem thawSched_taken : s.taken.thawSched = s.thawSched := by
  unfold State.thawSched
  rw [taken_player, taken_now]

theorem answer_player (seq kind : Byte) (r : Resp) (s : State) : (answer seq kind r s).player = s.player := rfl

theorem answer_chan (seq kind : Byte) (r : Resp) (s : State) (c : Chan) : (answer seq kind r s).chan c = s.chan c := rfl

/-- The message of a GO kind: its row, its code, its check and what it runs (R55, R206). -/
structure GoMessage (h : Hdr) (c : Instr) (kind : Byte) (k : GoKind) (m : Message) : Prop where
  row : c = commandOf h m
  code : kind = kindOf m
  check : lineCheck m = .ok m
  run : ∀ s, runMessage .node m s = goOp k .host s

theorem goMessage_of {h : Hdr} {c : Instr} {kind : Byte} (message : (c = .go h ∧ kind = 0x20 ∧ k = .go)
    ∨ (∃ n : Half, c = .goTo h n ∧ kind = 0x21 ∧ k = .goTo n.toNat) ∨ (c = .back h ∧ kind = 0x22 ∧ k = .back)) :
    ∃ m, GoMessage h c kind k m := by
  rcases message with ⟨rfl, rfl, rfl⟩ | ⟨n, rfl, rfl, rfl⟩ | ⟨rfl, rfl, rfl⟩
  · exact ⟨.go, rfl, rfl, rfl, fun _ => rfl⟩
  · exact ⟨.goTo n, rfl, rfl, rfl, fun _ => rfl⟩
  · exact ⟨.back, rfl, rfl, rfl, fun _ => rfl⟩

theorem goOp_chosen (law : CueListLaw s.working) (listed : q ∈ s.working.cues) (chosen : Chosen k q s) :
    goOp k source s = (goneTo k q source s,
      ⟨.done, byte2 q.number ++ byte1 (s.skipped q) ++ byte1 (goneTo k q source s).player.state.code⟩) := by
  unfold goOp
  rw [goRequest_chosen law listed chosen]

theorem goOp_refused {st : Status} (none_ : chooseCue k s = .error st) : goOp k source s = refuse st s := by
  unfold goOp
  rw [goRequest_refused k source s st none_]
  rfl

/-- A GO, GO_TO or BACK of the node runs the operation for its cue (R55, R61). -/
theorem answers_go {h : Hdr} {c : Instr} {kind : Byte} {m : Message} (message : GoMessage h c kind k m)
    (law : CueListLaw s.working) (listed : q ∈ s.working.cues) (takes : TakesNew h kind s) (chosen : Chosen k q s) :
    Answers c h kind s (goneTo k q .host s.taken) .done
      (byte2 q.number ++ byte1 (s.skipped q) ++ byte1 (goneTo k q .host s.taken).player.state.code) := by
  obtain ⟨rfl, rfl, check, run⟩ := message
  refine answers_new h m s _ _ _ takes check ?_
  rw [run, goOp_chosen (by rwa [taken_working]) (by rwa [taken_working])
    (chosen.congr (by rw [taken_player]) (taken_working s)), skipped_taken]

theorem refuses_go {h : Hdr} {c : Instr} {kind : Byte} {m : Message} {st : Status} (message : GoMessage h c kind k m)
    (takes : TakesNew h kind s) (none_ : chooseCue k s.taken = .error st) : Refuses c h kind s st := by
  obtain ⟨rfl, rfl, check, run⟩ := message
  exact refuses_new h m s st takes check ((run _).trans (goOp_refused none_))

end

/-- Settles O26. -/
theorem goStartsTheChosenCue : Obligations.GoStartsTheChosenCue := by
  refine ⟨fun h c kind k q s law position listed takes message chosen => ?_, fun h n s => ⟨fun takes last => ?_,
    fun takes first => ?_, fun takes bad => ?_, fun takes low high absent => ?_⟩⟩
  · obtain ⟨m, message⟩ := goMessage_of message
    exact ⟨_, answers_go message law listed takes chosen, goneTo_starts (law.channels listed) position.taken⟩
  · refine refuses_go (m := .go) ⟨rfl, rfl, rfl, fun _ => rfl⟩ takes (chooseCue_go_none ?_)
    rwa [taken_working, taken_player]
  · refine refuses_go (m := .back) ⟨rfl, rfl, rfl, fun _ => rfl⟩ takes (chooseCue_back_none ?_)
    rwa [taken_working, taken_player]
  · exact refuses_go (m := .goTo n) ⟨rfl, rfl, rfl, fun _ => rfl⟩ takes (chooseCue_goTo_range bad)
  · refine refuses_go (m := .goTo n) ⟨rfl, rfl, rfl, fun _ => rfl⟩ takes (chooseCue_goTo_absent low high ?_)
    rwa [taken_working]

/-- Settles O27: the answer of a GO is unique, so that what goneTo does is what the command does. -/
theorem goActsOnItsChannels : Obligations.GoActsOnItsChannels := by
  intro h c kind k q s t st data law listed takes message chosen answers
  obtain ⟨m, message⟩ := goMessage_of message
  have ascending := law.channels listed
  have same := Host.Outcome.next.inj (answers.symm.trans (answers_go message law listed takes chosen))
  have player : t.player = (goneTo k q .host s.taken).player := by
    simpa only [answer_player] using congrArg State.player same
  have chan (d : Chan) : t.chan d = (goneTo k q .host s.taken).chan d := by
    simpa only [answer_chan] using congrArg (fun u : State => u.chan d) same
  rw [player]
  refine ⟨(goneTo_acts ascending).of_taken.congr chan (congrArg Player.sched player), ?_, fun sched => ?_⟩
  · rw [goneTo_sched_kept ascending (fun a ha free e channel => ?_) fun e => ?_, taken_player, thawSched_taken]
    · rfl
    · rw [taken_chan] at free
      simpa using ⟨a, ha, channel.symm, free⟩
    · simp only [State.thawSched_channel]
  · refine (goneTo_order ascending sched.taken).imp fun {x y} order => ?_
    rw [GoOrder, actedOn_iff, actedOn_iff, goThaw_now] at order
    simpa only [taken_chan, taken_now] using order

end Sys2Proof.Machine
end

section
/-! SUPPORT. GO operations from other sources: the groups, the follow timer, and LIST_END where no cue is chosen (R56, R68, R80,
R174, R175). -/

namespace Sys2Proof.Machine

section
variable {k : GoKind} {q : Cue} {source : Source} {s t : State}

/-! ## No cue is chosen -/

theorem chosen_of_nextCue (law : CueListLaw s.working) (found : s.working.nextCue s.player.position = some q) :
    q ∈ s.working.cues ∧ Chosen .go q s := by
  have listed : q ∈ s.working.cues := List.mem_of_find?_eq_some found
  obtain ⟨above, as, bs, eq, low⟩ := List.find?_eq_some_iff_append.mp found
  have ascending := law.ascending
  rw [eq, List.map_append, List.map_cons, List.pairwise_append, List.pairwise_cons] at ascending
  obtain ⟨_, ⟨after, _⟩, _⟩ := ascending
  refine ⟨listed, of_decide_eq_true above, fun y hy gt => ?_⟩
  rw [eq] at hy
  rcases List.mem_append.mp hy with hy | hy
  · have notAbove := low y hy
    simp [gt] at notAbove
  · rcases List.mem_cons.mp hy with rfl | hy
    · exact le_rfl
    · exact le_of_lt (after _ (List.mem_map_of_mem hy))

theorem chosen_of_prevCue (law : CueListLaw s.working) (found : s.working.prevCue s.player.position = some q) :
    q ∈ s.working.cues ∧ Chosen .back q s := by
  have listed : q ∈ s.working.cues := List.mem_reverse.mp (List.mem_of_find?_eq_some found)
  obtain ⟨below, as, bs, eq, high⟩ := List.find?_eq_some_iff_append.mp found
  have descending : (s.working.cues.reverse.map (·.number)).Pairwise (· > ·) := by
    rw [List.map_reverse, List.pairwise_reverse]
    exact law.ascending
  rw [eq, List.map_append, List.map_cons, List.pairwise_append, List.pairwise_cons] at descending
  obtain ⟨_, ⟨after, _⟩, _⟩ := descending
  refine ⟨listed, of_decide_eq_true below, fun y hy lt => ?_⟩
  rw [← List.mem_reverse, eq] at hy
  rcases List.mem_append.mp hy with hy | hy
  · have notBelow := high y hy
    simp [lt] at notBelow
  · rcases List.mem_cons.mp hy with rfl | hy
    · exact le_rfl
    · exact le_of_lt (after _ (List.mem_map_of_mem hy))

/-- The refusal where no cue of the list is chosen (R56 to R58). -/
def GoKind.refusal : GoKind → Status
  | .goTo n => if n < 1 ∨ 9999 < n then .badValue else .notFound
  | _ => .endOfList

theorem chooseCue_unchosen (law : CueListLaw s.working) (none_ : ∀ q ∈ s.working.cues, ¬ Chosen k q s) :
    chooseCue k s = .error k.refusal := by
  cases k with
  | go =>
    have absent : s.working.nextCue s.player.position = none := Option.eq_none_iff_forall_not_mem.mpr fun q found => by
      obtain ⟨listed, chosen⟩ := chosen_of_nextCue law found
      exact none_ q listed chosen
    dsimp only [chooseCue]
    rw [absent]
    rfl
  | goTo n =>
    by_cases bad : n < 1 ∨ 9999 < n
    · rw [chooseCue_goTo_range bad, GoKind.refusal, if_pos bad]
    · rw [chooseCue_goTo_absent (by omega) (by omega) fun q listed eq => none_ q listed eq.symm, GoKind.refusal, if_neg bad]
  | back =>
    have absent : s.working.prevCue s.player.position = none := Option.eq_none_iff_forall_not_mem.mpr fun q found => by
      obtain ⟨listed, chosen⟩ := chosen_of_prevCue law found
      exact none_ q listed chosen
    dsimp only [chooseCue]
    rw [absent]
    rfl

theorem goOrListEnd_chosen (law : CueListLaw s.working) (listed : q ∈ s.working.cues) (chosen : Chosen .go q s) :
    goOrListEnd source s = goneTo .go q source s := by
  unfold goOrListEnd
  rw [goRequest_chosen law listed chosen]

theorem goOrListEnd_last (last : ∀ q ∈ s.working.cues, q.number ≤ s.player.position) :
    goOrListEnd source s = offer (.listEnd s.player.position source) s := by
  unfold goOrListEnd
  rw [goRequest_refused .go source s _ (chooseCue_go_none last)]

/-! ## The groups -/

theorem takeGroup_line (f : FrameIn) (s : State) :
    (takeGroup f s).line.reply = s.line.reply ∧ (takeGroup f s).line.cache = s.line.cache := by
  have ran (m : Message) (u : State) : (runMessage .group m u).1.line.reply = u.line.reply
      ∧ (runMessage .group m u).1.line.cache = u.line.cache := by
    obtain ⟨_, _, line⟩ := runMessage_kept .group m u
    rw [line]
    exact ⟨rfl, rfl⟩
  unfold takeGroup
  dsimp only
  split
  · exact ⟨rfl, rfl⟩
  · split
    · split
      · exact ⟨rfl, rfl⟩
      · exact ran _ _
    · exact ⟨rfl, rfl⟩

theorem takeGroup_repeat {f : FrameIn} (repeated : s.line.repeated f.seq f.kind = true) : takeGroup f s = s := by
  unfold takeGroup
  rw [if_pos repeated]

theorem takeGroup_idle {f : FrameIn} (new : s.line.repeated f.seq f.kind = false)
    (idle : groupPermits f.kind = false ∨ ∃ st, f.message = .error st) : takeGroup f s
      = s.setLine { s.line with filter := if f.seq = 0 then none else some (f.seq, f.kind) } := by
  unfold takeGroup
  rw [if_neg (by rw [new]; exact Bool.false_ne_true)]
  dsimp only
  split
  · next permitted =>
    rcases idle with no | ⟨st, bad⟩
    · rw [no] at permitted
      cases permitted
    · rw [bad]
  · rfl

theorem lineCheck_length {m : Message} (wrong : m.lengthOk = false) : lineCheck m = .error .badLength := by
  unfold lineCheck
  rw [wrong]
  rfl

/-- A frame for the groups is not answered, and goes into the filter (R174). -/
theorem groupFrame_taken {h : Hdr} {m : Message} (listens : Listens s) (names : NamesGroup h.addr s)
    (next : exec (commandOf h m) s = .next t) : t = takeGroup ⟨h.addr, h.seq, kindOf m, lineCheck m⟩ s.taken := by
  rw [exec_commandOf, frameArrives_group h m s listens names] at next
  exact (Host.Outcome.next.inj next).symm

theorem filtered_player {h : Hdr} {kind : Byte} : (s.filtered h kind).player = s.player := taken_player s

theorem filtered_working {h : Hdr} {kind : Byte} : (s.filtered h kind).working = s.working := taken_working s

/-- A GO, GO_TO or BACK for the groups runs the operation with source GROUP (R55, R175). -/
theorem exec_groupGo {h : Hdr} {m : Message} (takes : TakesGroup h (kindOf m) s)
    (message : (m = .go ∧ k = .go) ∨ (∃ n : Half, m = .goTo n ∧ k = .goTo n.toNat) ∨ (m = .back ∧ k = .back)) :
    exec (commandOf h m) s = .next (goOp k .group (s.filtered h (kindOf m))).1 := by
  rw [exec_commandOf]
  rcases message with ⟨rfl, rfl⟩ | ⟨n, rfl, rfl⟩ | ⟨rfl, rfl⟩
  · rw [frameArrives_acts h .go s takes rfl rfl]
    rfl
  · rw [frameArrives_acts h (.goTo n) s takes rfl rfl]
    rfl
  · rw [frameArrives_acts h .back s takes rfl rfl]
    rfl

end

/-- Settles O7. -/
theorem groupFramesActWithoutReply : Obligations.GroupFramesActWithoutReply := by
  refine ⟨fun h m s t listens names next => ?_, fun h m s t r takes kinds run => ?_,
    fun h m k s law position takes message => ⟨fun q listed chosen => ?_, fun none_ => ?_⟩⟩
  · obtain rfl := groupFrame_taken listens names next
    obtain ⟨reply, cache⟩ := takeGroup_line ⟨h.addr, h.seq, kindOf m, lineCheck m⟩ s.taken
    rw [reply, cache, taken_line]
    refine ⟨listens.2, rfl, fun nonzero filter => takeGroup_repeat ?_, fun takes idle => takeGroup_idle ?_ ?_⟩
    · rw [taken_repeated]
      exact decide_eq_true ⟨nonzero, filter⟩
    · rw [taken_repeated]
      exact takes.2.2
    · exact idle.imp_right fun wrong => ⟨_, lineCheck_length wrong⟩
  · have permitted : groupPermits (kindOf m) = true ∧ lineCheck m = .ok m
        ∧ runMessage .group m (s.filtered h (kindOf m)) = (t, r) := by
      rcases kinds with rfl | rfl | ⟨time, rfl⟩ | ⟨l, time, rfl⟩ | ⟨b, rfl⟩ | ⟨mask, target, time, curve, tag, rfl⟩ <;>
        exact ⟨rfl, rfl, run⟩
    obtain ⟨permits, check, run⟩ := permitted
    rw [exec_commandOf, frameArrives_acts h m s takes permits check, run]
  · have law' : CueListLaw (s.filtered h (kindOf m)).working := by rwa [filtered_working]
    have listed' : q ∈ (s.filtered h (kindOf m)).working.cues := by rwa [filtered_working]
    have chosen' : Chosen k q (s.filtered h (kindOf m)) := chosen.congr (by rw [filtered_player]) filtered_working
    refine ⟨_, exec_groupGo takes message, ?_⟩
    rw [goOp_chosen law' listed' chosen']
    exact goneTo_starts (law.channels listed)
      (position.congr (by rw [filtered_player]) (by rw [filtered_player]) (by rw [filtered_player]))
  · have refused : chooseCue k (s.filtered h (kindOf m)) = .error k.refusal := by
      refine chooseCue_unchosen (by rwa [filtered_working]) fun q listed chosen => ?_
      rw [filtered_working] at listed
      exact none_ q listed (chosen.congr (by rw [filtered_player]) filtered_working.symm)
    rw [exec_groupGo takes message, goOp_refused refused]
    rfl

section
variable {q : Cue} {s : State} {f : Countdown}

/-! ## The follow timer -/

theorem exec_followExpiry_due (run : s.phase = .running) (follow : s.player.follow = some f)
    (playing : s.player.state ≠ .paused) (due : f.remaining ≤ since s.now f.lastAdvance) :
    exec .followExpiry s = .next (expireFollow s) := by
  have hrun : s.runs = true := decide_eq_true run
  have hdue : s.followDue = true := by
    unfold State.followDue
    rw [follow]
    exact decide_eq_true ⟨playing, Nat.sub_eq_zero_of_le due⟩
  change execFollowExpiry s = _
  unfold execFollowExpiry
  rw [hrun, hdue]
  rfl

theorem exec_followExpiry_waits (follow : s.player.follow = some f)
    (waits : s.player.state = .paused ∨ since s.now f.lastAdvance < f.remaining) : exec .followExpiry s = .next s := by
  have hdue : s.followDue = false := by
    unfold State.followDue
    rw [follow]
    refine decide_eq_false fun both => ?_
    have : f.remaining - since s.now f.lastAdvance = 0 := both.2
    rcases waits with paused | early
    · exact both.1 paused
    · omega
  change execFollowExpiry s = _
  unfold execFollowExpiry
  rw [hdue, Bool.and_false]
  rfl

/-- The follow timer is consumed (R68). -/
def consumed (s : State) : State := s.setPlayer { s.player with follow := none }

theorem expireFollow_chosen (law : CueListLaw s.working) (listed : q ∈ s.working.cues) (chosen : Chosen .go q s) :
    expireFollow s = goneTo .go q .follow (consumed s) := by
  have started := goRequest_chosen (source := .follow) (s := consumed s) law listed (chosen.congr rfl rfl)
  unfold expireFollow
  dsimp only
  rw [← consumed, started]

theorem expireFollow_last (last : ∀ q ∈ s.working.cues, q.number ≤ s.player.position) : expireFollow s = { s with
    player := { s.player with
      follow := none
      state := if s.player.live = [] then .waiting else s.player.state }
    report := s.report.offer s.working.params.reportEnable s.now (.listEnd s.player.position .follow) } := by
  have refused := goRequest_refused .go .follow (consumed s) _ (chooseCue_go_none last)
  unfold expireFollow
  dsimp only
  rw [← consumed, refused]
  rfl

end

/-- Settles O31. -/
theorem followStartsTheNextCue : Obligations.FollowStartsTheNextCue := by
  intro s f run follow law position consumed_
  refine ⟨fun playing due => ⟨fun q listed chosen => ?_, fun last => ?_⟩, exec_followExpiry_waits follow⟩
  · refine ⟨_, exec_followExpiry_due run follow playing due, ?_⟩
    rw [expireFollow_chosen law listed chosen]
    exact goneTo_starts (s := consumed s) (law.channels listed) (position.congr rfl rfl rfl)
  · rw [exec_followExpiry_due run follow playing due, expireFollow_last last]

end Sys2Proof.Machine
end

section
/-! SUPPORT. The silence timer (R185 to R187). -/

namespace Sys2Proof.Machine

section
variable {q : Cue} {s : State}

/-- An offer after an operation that leaves the working show and the clock. -/
theorem offer_eq {u : State} {d : Report} (working : u.working = s.working) (now : u.now = s.now) :
    offer d u = { u with report := u.report.offer s.working.params.reportEnable s.now d } := by
  rw [← working, ← now]
  rfl

/-- The silence has begun (R186 step 1). -/
def silenced (s : State) : State := s.setLine { s.line with silence := .silent 0 }

theorem exec_silenceTimerExpiry_due (run : s.phase = .running) (on : 1 ≤ s.working.params.silenceTime)
    (listening : s.line.silence = .listening)
    (due : s.working.params.silenceTime * 1000 ≤ since s.now s.line.silenceFrom) : exec .silenceTimerExpiry s
      = .next (offer (.silenceBegin (silenceAction (silenced s)).2) (silenceAction (silenced s)).1) := by
  have hrun : s.runs = true := decide_eq_true run
  have hdue : s.silenceDue = true := decide_eq_true ⟨on, listening, due⟩
  change execSilenceTimerExpiry s = _
  unfold execSilenceTimerExpiry
  rw [hrun, hdue]
  rfl

theorem exec_silenceTimerExpiry_waits (waits : s.working.params.silenceTime = 0 ∨ (∃ ms, s.line.silence = .silent ms)
    ∨ since s.now s.line.silenceFrom < s.working.params.silenceTime * 1000) : exec .silenceTimerExpiry s = .next s := by
  have hdue : s.silenceDue = false := by
    refine decide_eq_false ?_
    rintro ⟨on, listening, due⟩
    rcases waits with off | ⟨ms, silent⟩ | early
    · omega
    · rw [silent] at listening
      cases listening
    · omega
  change execSilenceTimerExpiry s = _
  unfold execSilenceTimerExpiry
  rw [hdue, Bool.and_false]
  rfl

theorem silenceAction_hold (hold : s.working.params.silenceAction = .hold) : silenceAction s = (s, .hold) := by
  unfold silenceAction
  rw [hold]

theorem silenceAction_nothing (safe : s.working.params.silenceAction = .safe)
    (absent : s.working.params.safeCue = 0 ∨ ∀ q ∈ s.working.cues, q.number ≠ s.working.params.safeCue)
    (high : s.working.params.safeCue ≤ 9999) : silenceAction s = (s, .nothing) := by
  unfold silenceAction
  rw [safe]
  dsimp only
  split
  · rfl
  · next some_ =>
    have refused := chooseCue_goTo_absent (n := s.working.params.safeCue) (by omega) high (absent.resolve_left some_)
    rw [goRequest_refused _ .silence s _ refused]

theorem silenceAction_safe (safe : s.working.params.silenceAction = .safe) (law : CueListLaw s.working)
    (listed : q ∈ s.working.cues) (number : q.number = s.working.params.safeCue) :
    silenceAction s = (goneTo (.goTo q.number) q .silence s, .safe) := by
  have low := (law.number listed).1
  unfold silenceAction
  rw [safe]
  dsimp only
  have chosen : Chosen (.goTo q.number) q s := rfl
  rw [if_neg (by omega), ← number, goRequest_chosen law listed chosen]

end

/-- Settles O51. -/
theorem silenceActsAndEnds : Obligations.SilenceActsAndEnds := by
  refine ⟨?_, fun s => ⟨fun listening => ?_, fun ms silent => ?_⟩⟩
  · intro s run p begun
    refine ⟨fun on listening due => ?_, exec_silenceTimerExpiry_waits⟩
    have expires := exec_silenceTimerExpiry_due run on listening due
    refine ⟨fun hold => ?_, fun safe absent high => ?_, fun safe law position q listed number => ?_⟩
    · rw [expires, silenceAction_hold (s := silenced s) hold]
      rfl
    · rw [expires, silenceAction_nothing (s := silenced s) safe absent high]
      rfl
    · refine ⟨_, goneTo_starts (s := silenced s) (law.channels listed) (position.congr rfl rfl rfl), ?_⟩
      have played := goneTo_played (k := .goTo q.number) (q := q) (source := .silence) (s := silenced s)
      have working : (goneTo (.goTo q.number) q .silence (silenced s)).working = s.working := played.working
      have now : (goneTo (.goTo q.number) q .silence (silenced s)).now = s.now := played.now
      rw [expires, silenceAction_safe (s := silenced s) safe law listed number, offer_eq working now]
  · rw [State.taken, frameEnds_eq, noteTaken]
    dsimp only [State.setLine]
    rw [listening]
    rfl
  · rw [State.taken, frameEnds_eq, noteTaken]
    dsimp only [State.setLine]
    rw [silent]
    rfl

end Sys2Proof.Machine
end

section
/-! SUPPORT. What an armed action, and with it every arrival at the arm monitor, keeps of playback: the published snapshot, the
cue list, and the agreement of the player's state with its position (R26, R53). -/

namespace Sys2Proof.Machine

/-- The snapshot stands, and so do the laws of the cue list and of the position where they held. -/
structure StillPlays (s t : State) : Prop where
  snapshot : t.fade.snapshot = s.fade.snapshot
  cues : CueListLaw s.working → CueListLaw t.working
  position : CueListLaw s.working → PositionLaw s → PositionLaw t

section
variable {s t u : State}

theorem StillPlays.same (snapshot : t.fade.snapshot = s.fade.snapshot) (working : t.working = s.working)
    (player : t.player = s.player) : StillPlays s t where
  snapshot := snapshot
  cues law := by rwa [working]
  position _ law := law.congr (by rw [player]) (by rw [player]) (by rw [player])

theorem StillPlays.refl (s : State) : StillPlays s s := .same rfl rfl rfl

theorem StillPlays.trans (h : StillPlays s t) (k : StillPlays t u) : StillPlays s u where
  snapshot := k.snapshot.trans h.snapshot
  cues law := k.cues (h.cues law)
  position law pos := k.position (h.cues law) (h.position law pos)

theorem StillPlays.foldl {β : Type} (f : State → β → State) (h : ∀ s b, StillPlays s (f s b)) (l : List β) (s : State) :
    StillPlays s (l.foldl f s) := by
  induction l generalizing s with
  | nil => exact .refl s
  | cons b rest ih => exact (h s b).trans (ih _)

theorem PositionLaw.runs (law : PositionLaw s) (runs : s.player.Runs t.player) : PositionLaw t := by
  rcases runs.state with same | ⟨running, waiting⟩
  · exact law.congr runs.position same runs.resumeTo
  · unfold PositionLaw at law ⊢
    rw [runs.position, runs.resumeTo, waiting]
    rw [running] at law
    simpa using law

/-- An operation of playback that runs the player on. -/
theorem StillPlays.of_runs (played : Played s t) (snapshot : t.fade.snapshot = s.fade.snapshot)
    (runs : s.player.Runs t.player) : StillPlays s t where
  snapshot := snapshot
  cues law := by rwa [played.working]
  position _ law := law.runs runs

/-! ## GO, GO_TO and BACK -/

theorem goOperation_snapshot (q : Cue) (source : Source) (s : State) :
    (goOperation q source s).1.fade.snapshot = s.fade.snapshot := by
  have action (n : Nat) (acc : State × Nat) (a : Action) : MasterKept acc.1 (goAction n acc a).1 := by
    unfold goAction
    dsimp only
    split
    · exact .refl _
    · split
      · exact (clearSched_master _ _ _).trans (startRequest_master _ _ _)
      · exact (clearSched_master _ _ _).trans ⟨rfl, rfl, rfl⟩
  have actions := MasterKept.foldlPair _ (action q.number) q.actions (goThaw s, 0)
  have thaw : (goThaw s).fade.snapshot = s.fade.snapshot := by
    unfold goThaw
    split <;> rfl
  unfold goOperation goActions
  dsimp only
  rw [goSettle_fade]
  exact actions.snapshot.trans thaw

theorem goRequest_plays (k : GoKind) (source : Source) (s : State) : StillPlays s (goRequest k source s).1 where
  snapshot := by
    unfold goRequest
    split
    · rfl
    · exact goOperation_snapshot _ _ _
  cues law := by rwa [(goRequest_played k source s).working]
  position law pos := by
    by_cases some_ : ∃ q ∈ s.working.cues, Chosen k q s
    · obtain ⟨q, listed, chosen⟩ := some_
      rw [goRequest_chosen law listed chosen]
      obtain ⟨number, resumeTo, _, state, _⟩ := goneTo_starts (k := k) (source := source) (law.channels listed) pos
      have low := (law.number listed).1
      unfold PositionLaw
      dsimp only
      rw [number, resumeTo, state]
      constructor
      · split <;> simp <;> omega
      · split <;> simp
    · push Not at some_
      rw [goRequest_refused k source s _ (chooseCue_unchosen law some_)]
      exact pos

/-! ## The other actions -/

theorem pauseNow_plays {was : ResumeTo} (active : s.player.state = .running ∨ s.player.state = .waiting) :
    StillPlays s (pauseNow was s) where
  snapshot := rfl
  cues law := law
  position _ law := by
    obtain ⟨stopped, _⟩ := law
    refine ⟨?_, by simp [pauseNow]⟩
    have zero : s.player.position ≠ 0 := fun zero => by
      rcases active with state | state <;> simp [state] at stopped <;> omega
    simpa [pauseNow, freezeRequest] using zero

theorem pauseRequest_plays (s : State) : StillPlays s (pauseRequest s).1 := by
  unfold pauseRequest
  split
  · next running => exact pauseNow_plays (.inl running)
  · next waiting => exact pauseNow_plays (.inr waiting)
  · exact .refl s
  · exact .refl s

theorem resumeRequest_plays (s : State) : StillPlays s (resumeRequest s).1 := by
  unfold resumeRequest
  split
  · next paused =>
    refine ⟨rfl, id, fun _ law => ?_⟩
    obtain ⟨stopped, _⟩ := law
    rw [paused] at stopped
    have zero : s.player.position ≠ 0 := fun zero => by simpa using stopped.mp zero
    constructor
    · refine iff_of_false zero ?_
      dsimp only [State.setPlayer]
      split <;> simp
    · refine iff_of_false (by simp [State.setPlayer, Player.thaw]) ?_
      dsimp only [State.setPlayer]
      split <;> simp
  · exact .refl s

theorem releaseNow_plays (time : Nat) (s : State) : StillPlays s (releaseNow time s).1 where
  snapshot := releaseNow_master.snapshot
  cues law := by rwa [(releaseNow_played time s).working]
  position _ _ := by
    unfold PositionLaw
    rw [releaseNow_player]
    simp

theorem openBatch_plays (tag : Nat) (s : State) : StillPlays s (openBatch tag s) :=
  .of_runs (openBatch_played tag s) (openBatch_master tag s).snapshot (by rw [openBatch_player]; exact .refl _)

theorem settleBatch_plays (tag : Nat) (s : State) : StillPlays s (settleBatch tag s) :=
  .of_runs (settleBatch_played tag s) (settleBatch_master tag s).snapshot (by rw [settleBatch_player]; exact .refl _)

theorem clearSched_plays (hold : Hold) (set : Chan → Bool) (s : State) : StillPlays s (clearSched hold set s) :=
  .of_runs (clearSched_played hold set s) (clearSched_master hold set s).snapshot (clearSched_runs hold set s)

theorem startRequest_plays (hold : Hold) (q : StartReq) (s : State) : StillPlays s (startRequest hold q s).1 :=
  .of_runs (startRequest_played hold q s) (startRequest_master hold q s).snapshot (startRequest_accounted hold q s).toRuns

theorem fadeChannels_plays (target time curve tag : Nat) (l : List Chan) (acc : State × FadeCounts) :
    StillPlays acc.1 (l.foldl (fadeChannel target time curve tag) acc).1 := by
  induction l generalizing acc with
  | nil => exact .refl _
  | cons c rest ih =>
    refine StillPlays.trans ?_ (ih _)
    rw [fadeChannel_state]
    exact startRequest_plays _ _ _

theorem fadeMiddle_plays (mask : ChanMask) (target time curve tag : Nat) (s : State) :
    StillPlays s (fadeMiddle mask target time curve tag s).1 := by
  unfold fadeMiddle
  refine StillPlays.trans ?_ (fadeChannels_plays target time curve tag (s.unparkedOf mask) _)
  dsimp only
  exact (openBatch_plays tag s).trans (clearSched_plays _ _ _)

theorem fadeNow_plays (mask : ChanMask) (target time curve tag : Nat) (s : State) :
    StillPlays s (fadeNow mask target time curve tag s).1 := by
  rw [fadeNow_eq]
  exact (fadeMiddle_plays mask target time curve tag s).trans (settleBatch_plays tag _)

theorem fadeRequest_plays (mask : ChanMask) (target time curve tag : Nat) (s : State) :
    StillPlays s (fadeRequest mask target time curve tag s).1 := by
  unfold fadeRequest
  split
  · exact .refl s
  · exact fadeNow_plays mask target time curve tag s

theorem masterRequest_plays (level time : Nat) (s : State) : StillPlays s (masterRequest level time s).1 := by
  unfold masterRequest
  split
  · exact .refl s
  · split <;> exact .same rfl rfl rfl

theorem runArmAction_plays (a : ArmAction) (s : State) : StillPlays s (runArmAction a s).1 := by
  cases a with
  | go => exact goRequest_plays .go .arm s
  | goTo n => exact goRequest_plays (.goTo n) .arm s
  | back => exact goRequest_plays .back .arm s
  | pause => exact pauseRequest_plays s
  | resume => exact resumeRequest_plays s
  | release time =>
    have released := releaseNow_plays time s
    rw [runArmAction]
    dsimp only
    exact released
  | fade mask target time curve =>
    rw [runArmAction]
    dsimp only
    exact fadeRequest_plays mask target time curve 0 s
  | setMaster level time => exact masterRequest_plays level time s

/-! ## The arrivals -/

theorem putSlot_plays (k : Fin 8) (d : Option ArmDef) (s : State) : StillPlays s (s.putSlot k d) :=
  ⟨rfl, id, fun _ law => law⟩

theorem setArm_plays (a : ArmMonitor) (s : State) : StillPlays s (s.setArm a) := .same rfl rfl rfl

theorem onceEmptied_plays (d : ArmDef) (k : Fin 8) (s : State) : StillPlays s (onceEmptied d k s) := by
  unfold onceEmptied
  split
  · exact (putSlot_plays k none s).trans (setArm_plays _ _)
  · exact .refl s

theorem fireSlot_plays (s : State) (k : Fin 8) : StillPlays s (fireSlot s k) := by
  cases fired : Table.at s.arm.fired k with
  | true =>
    rw [fireSlot_of_fired s k fired]
    exact .refl s
  | false =>
    cases armed : s.slot k with
    | none =>
      rw [fireSlot_of_empty s k armed]
      exact .refl s
    | some d =>
      rw [fireSlot_eq s k d fired armed]
      exact (((setArm_plays _ s).trans (onceEmptied_plays d k _)).trans (runArmAction_plays d.action _)).trans
        (.same rfl rfl rfl)

theorem fireSlots_plays (l : List (Fin 8)) (s : State) : StillPlays s (fireSlots l s) :=
  .foldl fireSlot fireSlot_plays l s

theorem takeAhead_plays (s : State) : StillPlays s (takeAhead s) :=
  (setArm_plays _ s).trans (.foldl (fun s a => takeArrival (Arrival.cue a) s) (fun _ _ => fireSlots_plays _ _) _ _)

theorem takeAllAhead_plays (s : State) : StillPlays s (takeAllAhead s) :=
  .foldl (fun s _ => takeAhead s) (fun s _ => takeAhead_plays s) _ s

end

end Sys2Proof.Machine
end

section
/-! SUPPORT. Firing: what one slot that fires leaves, and the slots of one arrival in ascending order (R107 to R110). -/

namespace Sys2Proof.Machine

theorem Acted.onlyArmed {s t : State} (h : Acted s t) : OnlyArmed s t := by
  obtain ⟨phase, pins, clock, working, editor, inputs, comp, pwm, chain, line, mem, pending, free, _⟩ := h
  obtain ⟨_, _, _, _, _, _, _, _, _, _, _, _, _, _, _, _, _⟩ := t
  exact (State.mk.injEq ..).mpr ⟨phase, pins, clock, rfl, working, editor, rfl, rfl, inputs, comp, pwm, chain, rfl, line, mem,
    pending, free⟩

/-! ## The action of a slot -/

section
variable {s : State} {a : ArmAction}

theorem pauseOp_status (s : State) : (pauseOp s).2.status = (pauseRequest s).2 := by
  unfold pauseOp
  split <;> next e => rw [e]

theorem resumeOp_status (s : State) : (resumeOp s).2.status = (resumeRequest s).2 := by
  unfold resumeOp
  split <;> next e => rw [e]

theorem fadeOp_status (mask : ChanMask) (target : Half) (time : Word) (curve tag : Byte) (s : State) :
    (fadeOp mask target time curve tag s).2.status
      = (fadeRequest mask target.toNat time.toNat curve.toNat tag.toNat s).2.2 := by
  unfold fadeOp
  split <;> next e => rw [e]

theorem setMasterOp_status (level time : Half) (s : State) :
    (setMasterOp level time s).2.status = (masterRequest level.toNat time.toNat s).2 := by
  unfold setMasterOp
  split <;> next e => rw [e]

theorem toNat_ofNat_of_lt {w n : Nat} (lt : n < 2 ^ w) : (BitVec.ofNat w n).toNat = n := by
  rw [BitVec.toNat_ofNat, Nat.mod_eq_of_lt lt]

/-- A response is its status and its data. -/
theorem runs_of {r : State × Resp} {t : State} {st : Status} (state : r.1 = t) (status : r.2.status = st) :
    ∃ data, r = (t, ⟨st, data⟩) := by
  subst state status
  exact ⟨r.2.data, rfl⟩

theorem armGo_runs {k : GoKind} (law : CueListLaw s.working) (position : PositionLaw s)
    (range : ∀ n, k = .goTo n → 1 ≤ n ∧ n ≤ 9999) : ArmGoRuns k s (armGo k s).1 (armGo k s).2 := by
  unfold armGo
  refine ⟨fun q listed chosen => ?_, fun none_ => ?_⟩
  · rw [goRequest_chosen law listed chosen]
    exact ⟨rfl, goneTo_starts (law.channels listed) position⟩
  · rw [goRequest_refused k .arm s _ (chooseCue_unchosen law none_)]
    refine ⟨rfl, ?_⟩
    cases k with
    | go => rfl
    | goTo n =>
      have := range n rfl
      exact if_neg (by omega)
    | back => rfl

/-- The action of a slot runs the operation of its name (R107). -/
theorem runArmAction_runs (inRange : a.inRange) (law : CueListLaw s.working) (position : PositionLaw s) :
    ActionRuns a s (runArmAction a s).1 (runArmAction a s).2 := by
  cases a with
  | go => exact armGo_runs law position fun n eq => by cases eq
  | goTo n => exact armGo_runs law position fun m eq => by cases eq; exact inRange
  | back => exact armGo_runs law position fun n eq => by cases eq
  | pause => exact runs_of (pauseOp_fst s) (pauseOp_status s)
  | resume => exact runs_of (resumeOp_fst s) (resumeOp_status s)
  | release time =>
    obtain short : time ≤ 60000 := inRange
    have number : (BitVec.ofNat 16 time).toNat = time := toNat_ofNat_of_lt (by omega)
    have fst : (releaseOp (BitVec.ofNat 16 time) s).1 = (releaseNow time s).1 := by
      unfold releaseOp
      rw [number, if_neg (by omega)]
    have status : (releaseOp (BitVec.ofNat 16 time) s).2.status = .done := by
      unfold releaseOp
      rw [number, if_neg (by omega)]
    obtain ⟨data, run⟩ := runs_of fst status
    rw [runArmAction]
    dsimp only [ActionRuns]
    exact ⟨data, run⟩
  | fade mask target time curve =>
    obtain ⟨_, lo, short, low⟩ := inRange
    have fst := fadeOp_fst mask (BitVec.ofNat 16 target) (BitVec.ofNat 32 time) (BitVec.ofNat 8 curve) 0 s
    have status := fadeOp_status mask (BitVec.ofNat 16 target) (BitVec.ofNat 32 time) (BitVec.ofNat 8 curve) 0 s
    rw [toNat_ofNat_of_lt (by omega), toNat_ofNat_of_lt (by omega), toNat_ofNat_of_lt (by omega)] at fst status
    exact runs_of fst status
  | setMaster level time =>
    obtain ⟨low, short⟩ := inRange
    have fst := setMasterOp_fst (BitVec.ofNat 16 level) (BitVec.ofNat 16 time) s
    have status := setMasterOp_status (BitVec.ofNat 16 level) (BitVec.ofNat 16 time) s
    rw [toNat_ofNat_of_lt (by omega), toNat_ofNat_of_lt (by omega)] at fst status
    exact runs_of fst status

end

/-! ## One slot -/

/-- The slot stands as it stood: flag, contents and memory. -/
structure SlotKept (j : Fin 8) (s t : State) : Prop where
  fired : Table.at t.arm.fired j = Table.at s.arm.fired j
  slot : t.slot j = s.slot j
  memory : Table.at t.arm.memory j = Table.at s.arm.memory j

/-- The slot, ARMED with `d`, has fired: its flag is set, and a ONCE slot is EMPTY (R108). -/
structure SlotFired (j : Fin 8) (d : ArmDef) (s t : State) : Prop where
  fired : Table.at t.arm.fired j = true
  slot : t.slot j = if d.mode = .once then none else some d
  memory : Table.at t.arm.memory j = if d.mode = .once then none else Table.at s.arm.memory j

theorem SlotKept.refl (j : Fin 8) (s : State) : SlotKept j s s := ⟨rfl, rfl, rfl⟩

theorem SlotKept.trans {j : Fin 8} {s t u : State} (h : SlotKept j s t) (k : SlotKept j t u) : SlotKept j s u :=
  ⟨k.fired.trans h.fired, k.slot.trans h.slot, k.memory.trans h.memory⟩

theorem Played.slotKept {s t : State} (h : Played s t) (j : Fin 8) : SlotKept j s t :=
  ⟨by rw [h.fired], by rw [State.slot, h.working, State.slot], by rw [h.memory]⟩

section
variable {s : State} {j k : Fin 8} {d : ArmDef}

/-- The state in which the action of a slot runs (R108 steps 1 and 2). -/
def slotFlagged (d : ArmDef) (k : Fin 8) (s : State) : State :=
  onceEmptied d k (s.setArm { s.arm with fired := Table.put s.arm.fired k true })

theorem slotFlagged_eq : slotFlagged d k s = { s with
    arm := { s.arm with
      fired := Table.put s.arm.fired k true
      memory := if d.mode = .once then Table.put s.arm.memory k none else s.arm.memory }
    working := { s.working with
      arms := if d.mode = .once then Table.put s.working.arms k none else s.working.arms } } := by
  unfold slotFlagged onceEmptied
  by_cases once : d.mode = .once
  · simp only [if_pos once]
    rfl
  · simp only [if_neg once]
    rfl

theorem slotFlagged_plays (d : ArmDef) (k : Fin 8) (s : State) : StillPlays s (slotFlagged d k s) :=
  (setArm_plays _ s).trans (onceEmptied_plays d k _)

theorem slotFlagged_acted (d : ArmDef) (k : Fin 8) (s : State) : Acted s (slotFlagged d k s) :=
  (Acted.setArm _ s).trans (onceEmptied_acted d k _)

theorem slotFlagged_inbox : (slotFlagged d k s).arm.inbox = s.arm.inbox := by
  unfold slotFlagged
  rw [onceEmptied_inbox]
  rfl

theorem slotFlagged_kept (other : j ≠ k) : SlotKept j s (slotFlagged d k s) := by
  have ne : k ≠ j := other.symm
  rw [slotFlagged_eq]
  refine ⟨Table.at_put_ne _ _ ne, ?_, ?_⟩
  · unfold State.slot
    dsimp only
    split
    · exact Table.at_put_ne _ _ ne
    · rfl
  · dsimp only
    split
    · exact Table.at_put_ne _ _ ne
    · rfl

theorem slotFlagged_fired (armed : s.slot k = some d) : SlotFired k d s (slotFlagged d k s) := by
  rw [slotFlagged_eq]
  refine ⟨Table.at_put_self _ _ _, ?_, ?_⟩
  · unfold State.slot at armed ⊢
    dsimp only
    split
    · exact Table.at_put_self _ _ _
    · exact armed
  · dsimp only
    split
    · exact Table.at_put_self _ _ _
    · rfl

/-- What an action and its ARM_FIRED leave of the slots (R108 steps 3 and 4). -/
theorem fireSlot_after (clear : Table.at s.arm.fired k = false) (armed : s.slot k = some d) (j : Fin 8) :
    SlotKept j (slotFlagged d k s) (fireSlot s k) := by
  rw [fireSlot_eq s k d clear armed]
  exact (((runArmAction_played d.action _).trans (offer_played _ _)).slotKept j).trans ⟨rfl, rfl, rfl⟩

theorem fireSlot_other (other : j ≠ k) : SlotKept j s (fireSlot s k) := by
  cases fired : Table.at s.arm.fired k with
  | true =>
    rw [fireSlot_of_fired s k fired]
    exact .refl j s
  | false =>
    cases armed : s.slot k with
    | none =>
      rw [fireSlot_of_empty s k armed]
      exact .refl j s
    | some d => exact (slotFlagged_kept other).trans (fireSlot_after fired armed j)

theorem fireSlot_self (clear : Table.at s.arm.fired k = false) (armed : s.slot k = some d) :
    SlotFired k d s (fireSlot s k) := by
  have flagged := slotFlagged_fired armed
  have after := fireSlot_after clear armed k
  exact ⟨after.fired.trans flagged.fired, after.slot.trans flagged.slot, after.memory.trans flagged.memory⟩

/-- A slot whose flag is clear fires whole (R108, R109). -/
theorem fireSlot_fires (clear : Table.at s.arm.fired k = false) (armed : s.slot k = some d) (inRange : d.action.inRange)
    (law : CueListLaw s.working) (position : PositionLaw s) : SlotFires k d s (fireSlot s k) := by
  have plays := slotFlagged_plays d k s
  have runs := runArmAction_runs inRange (plays.cues law) (plays.position law position)
  have played := runArmAction_played d.action (slotFlagged d k s)
  obtain ⟨more, inbox⟩ := played.inbox
  rw [slotFlagged_inbox] at inbox
  have mask : (runArmAction d.action (slotFlagged d k s)).1.working.params = s.working.params := by
    rw [played.working, (slotFlagged_acted d k s).params]
  have now : (runArmAction d.action (slotFlagged d k s)).1.now = s.now := played.now.trans (slotFlagged_acted d k s).now
  have fires := fireSlot_eq s k d clear armed
  dsimp only at fires
  rw [← slotFlagged, slotFlagged_inbox] at fires
  unfold SlotFires
  rw [← slotFlagged_eq]
  generalize runArmAction d.action (slotFlagged d k s) = r at *
  refine ⟨r.1, r.2, more, runs, inbox, ?_⟩
  rw [fires, offer, mask, now]
  unfold putAhead
  simp only [State.setReport, State.setArm, inbox, List.take_left, List.drop_left]

end

/-! ## The slots of one arrival -/

section
variable {s : State} {l : List (Fin 8)} {j : Fin 8} {d : ArmDef}

theorem fireSlots_kept (spared : j ∉ l ∨ Table.at s.arm.fired j = true ∨ s.slot j = none) :
    SlotKept j s (fireSlots l s) := by
  induction l generalizing s with
  | nil => exact .refl j s
  | cons k rest ih =>
    have first : SlotKept j s (fireSlot s k) := by
      by_cases eq : j = k
      · subst eq
        rcases spared with out | fired | empty
        · exact absurd List.mem_cons_self out
        · rw [fireSlot_of_fired s j fired]
          exact .refl j s
        · rw [fireSlot_of_empty s j empty]
          exact .refl j s
      · exact fireSlot_other eq
    refine first.trans (ih ?_)
    rw [first.fired, first.slot]
    exact spared.imp_left fun out mem => out (List.mem_cons_of_mem k mem)

theorem fireSlots_fired (listed : j ∈ l) (clear : Table.at s.arm.fired j = false) (armed : s.slot j = some d) :
    SlotFired j d s (fireSlots l s) := by
  induction l generalizing s with
  | nil => cases listed
  | cons k rest ih =>
    by_cases eq : j = k
    · subst eq
      have self := fireSlot_self clear armed
      have after : SlotKept j (fireSlot s j) (fireSlots rest (fireSlot s j)) := fireSlots_kept (.inr (.inl self.fired))
      exact ⟨after.fired.trans self.fired, after.slot.trans self.slot, after.memory.trans self.memory⟩
    · have first := fireSlot_other (s := s) eq
      have fired := ih (s := fireSlot s k) ((List.mem_cons.mp listed).resolve_left eq) (first.fired.trans clear)
        (first.slot.trans armed)
      exact ⟨fired.fired, fired.slot, fired.memory.trans (by rw [first.memory])⟩

/-- Slots whose flags stand, and EMPTY slots, do nothing. -/
theorem fireSlots_idle (idle : ∀ k ∈ l, Table.at s.arm.fired k = true ∨ s.slot k = none) : fireSlots l s = s := by
  induction l with
  | nil => rfl
  | cons k rest ih =>
    have first : fireSlot s k = s := by
      rcases idle k List.mem_cons_self with fired | empty
      · exact fireSlot_of_fired s k fired
      · exact fireSlot_of_empty s k empty
    change fireSlots rest (fireSlot s k) = s
    rw [first]
    exact ih fun k hk => idle k (List.mem_cons_of_mem _ hk)

/-- The satisfied slots with their flags clear, and what they hold. -/
def firingOf (satisfied : Fin 8 → Bool) (s : State) (l : List (Fin 8)) : List (Fin 8 × ArmDef) :=
  l.filterMap fun k => if !Table.at s.arm.fired k && satisfied k then (s.slot k).map fun d => (k, d) else none

theorem firingOf_eq (satisfied : Fin 8 → Bool) (s : State) : firingOf satisfied s slots
    = firing (fun k => !Table.at s.arm.fired k && satisfied k) s.working := rfl

theorem fireSlots_order (satisfied : Fin 8 → Bool) (distinct : l.Nodup) (law : CueListLaw s.working) (position : PositionLaw s)
    (inRange : ∀ x ∈ firingOf satisfied s l, x.2.action.inRange) :
    FireInOrder (firingOf satisfied s l) s (fireSlots (l.filter satisfied) s) := by
  induction l generalizing s with
  | nil => rfl
  | cons k rest ih =>
    obtain ⟨new, distinct⟩ := List.nodup_cons.mp distinct
    by_cases fires : (!Table.at s.arm.fired k && satisfied k) = true ∧ (s.slot k).isSome
    · obtain ⟨fires, some_⟩ := fires
      obtain ⟨d, armed⟩ := Option.isSome_iff_exists.mp some_
      obtain ⟨clear, sat⟩ := Bool.and_eq_true_iff.mp fires
      have clear : Table.at s.arm.fired k = false := by simpa using clear
      have later : firingOf satisfied (fireSlot s k) rest = firingOf satisfied s rest := by
        refine List.filterMap_congr fun x hx => ?_
        have other := fireSlot_other (s := s) (j := x) (k := k) fun eq => new (eq ▸ hx)
        rw [other.fired, other.slot]
      have head : firingOf satisfied s (k :: rest) = (k, d) :: firingOf satisfied s rest := by
        unfold firingOf
        rw [List.filterMap_cons, if_pos fires, armed]
        rfl
      rw [head] at inRange ⊢
      have plays := fireSlot_plays s k
      refine ⟨fireSlot s k, fireSlot_fires clear armed (inRange _ List.mem_cons_self) law position, ?_⟩
      rw [List.filter_cons_of_pos sat, ← later]
      refine ih distinct (plays.cues law) (plays.position law position) fun x hx => ?_
      rw [later] at hx
      exact inRange x (List.mem_cons_of_mem _ hx)
    · have skips : firingOf satisfied s (k :: rest) = firingOf satisfied s rest := by
        unfold firingOf
        rw [List.filterMap_cons]
        split
        · rfl
        · next y hy =>
          split at hy
          · next sat =>
            obtain ⟨d, armed, _⟩ := Option.map_eq_some_iff.mp hy
            exact absurd ⟨sat, by rw [armed]; rfl⟩ fires
          · cases hy
      rw [skips] at inRange ⊢
      by_cases sat : satisfied k = true
      · have idle : fireSlot s k = s := by
          cases fired : Table.at s.arm.fired k with
          | true => exact fireSlot_of_fired s k fired
          | false =>
            refine fireSlot_of_empty s k ?_
            by_contra some_
            exact fires ⟨by simp [fired, sat], Option.isSome_iff_ne_none.mpr some_⟩
        have first : fireSlots ((k :: rest).filter satisfied) s = fireSlots (rest.filter satisfied) s := by
          rw [List.filter_cons_of_pos sat]
          change fireSlots (rest.filter satisfied) (fireSlot s k) = _
          rw [idle]
        rw [first]
        exact ih distinct law position inRange
      · rw [List.filter_cons_of_neg sat]
        exact ih distinct law position inRange

/-- The slots that an arrival satisfies fire in ascending order (R110 step 3). -/
theorem fireSlots_fireAll (satisfied : Fin 8 → Bool) (s : State) :
    FireAll (fun k => !Table.at s.arm.fired k && satisfied k) s (fireSlots (slots.filter satisfied) s) :=
  fun inRange law position => fireSlots_order satisfied (List.nodup_finRange 8) law position inRange

end

end Sys2Proof.Machine
end

section
/-! SUPPORT. The arrivals at the arm monitor: CUE_DONEs, input events and snapshots (R103 to R106, R110). -/

namespace Sys2Proof.Machine

section
variable {s : State} {satisfied : Fin 8 → Bool} {n : Nat}

/-! ## What an arrival leaves of the slots -/

/-- The slots of an arrival fire, and the others stand (R108, R110). -/
theorem arrival_slot (satisfied : Fin 8 → Bool) (s : State) (j : Fin 8) :
    (∀ d, s.slot j = some d → (!Table.at s.arm.fired j && satisfied j) = true →
        SlotFired j d s (fireSlots (slots.filter satisfied) s))
      ∧ ((s.slot j = none ∨ (!Table.at s.arm.fired j && satisfied j) = false) →
        SlotKept j s (fireSlots (slots.filter satisfied) s)) := by
  refine ⟨fun d armed fires => ?_, fun idle => fireSlots_kept ?_⟩
  · obtain ⟨clear, sat⟩ := Bool.and_eq_true_iff.mp fires
    exact fireSlots_fired (List.mem_filter.mpr ⟨List.mem_finRange j, sat⟩) (by simpa using clear) armed
  · rcases idle with empty | idle
    · exact .inr (.inr empty)
    · rcases Bool.and_eq_false_iff.mp idle with fired | unsat
      · exact .inr (.inl (by simpa using fired))
      · exact .inl fun mem => by simp [unsat] at mem

/-- A slot that is armed, after an arrival that it may satisfy. -/
theorem arrival_armed {j : Fin 8} {d : ArmDef} (armed : s.slot j = some d) :
    Table.at (fireSlots (slots.filter satisfied) s).arm.fired j = (Table.at s.arm.fired j || satisfied j)
      ∧ (fireSlots (slots.filter satisfied) s).slot j
        = (if (!Table.at s.arm.fired j && satisfied j) && (d.mode == .once) then none else some d)
      ∧ Table.at (fireSlots (slots.filter satisfied) s).arm.memory j
        = if (!Table.at s.arm.fired j && satisfied j) && (d.mode == .once) then none else Table.at s.arm.memory j := by
  obtain ⟨fires, idles⟩ := arrival_slot satisfied s j
  cases h : !Table.at s.arm.fired j && satisfied j with
  | true =>
    have fired := fires d armed h
    obtain ⟨_, sat⟩ := Bool.and_eq_true_iff.mp h
    refine ⟨by rw [fired.fired, sat, Bool.or_true], ?_, ?_⟩
    · rw [fired.slot]
      simp only [Bool.true_and, beq_iff_eq]
    · rw [fired.memory]
      simp only [Bool.true_and, beq_iff_eq]
  | false =>
    have kept := idles (.inr h)
    refine ⟨?_, by rw [kept.slot, armed]; rfl, by rw [kept.memory]; rfl⟩
    rw [kept.fired]
    cases fired : Table.at s.arm.fired j with
    | true => rfl
    | false => simpa [fired] using h.symm

theorem arrival_empty {j : Fin 8} (empty : s.slot j = none) :
    SlotKept j s (fireSlots (slots.filter satisfied) s) := (arrival_slot satisfied s j).2 (.inl empty)

/-! ## CUE_DONE -/

/-- The slot watches for the completion of cue `n` (R106). -/
def State.watchesCue (n : Nat) (s : State) (k : Fin 8) : Bool := (s.slot k).any fun d => d.condition.onCueDone n

theorem takeArrival_eq (n : Nat) (s : State) : takeArrival n s = fireSlots (slots.filter (s.watchesCue n)) s := by
  unfold takeArrival
  refine congrArg (fun f => fireSlots (slots.filter f) s) (funext fun k => ?_)
  unfold State.watchesCue
  cases s.slot k <;> rfl

theorem onCueDone_eq (n : Nat) (c : Condition) : c.onCueDone n = (c == .cueComplete n) := by
  rw [Bool.eq_iff_iff]
  cases c <;> simp [Condition.onCueDone]

theorem exec_armCueDoneArrival {a : Arrival} {rest : List Arrival} (run : s.phase = .running)
    (inbox : s.arm.inbox = a :: rest) :
    exec .armCueDoneArrival s = .next (takeArrival a.cue (s.setArm { s.arm with inbox := rest })) := by
  have hrun : s.runs = true := decide_eq_true run
  have takes : takeCueDone s = takeArrival a.cue (s.setArm { s.arm with inbox := rest }) := by
    unfold takeCueDone
    rw [inbox]
  change execArmCueDoneArrival s = _
  unfold execArmCueDoneArrival
  rw [hrun, ← takes]
  rfl

end

/-- Settles O37. -/
theorem cueDoneFiresItsSlots : Obligations.CueDoneFiresItsSlots := by
  intro s a rest run inbox fires
  have taken := exec_armCueDoneArrival run inbox
  rw [takeArrival_eq] at taken
  generalize before : s.setArm { s.arm with inbox := rest } = u at taken
  have flag (k : Fin 8) : Table.at u.arm.fired k = Table.at s.arm.fired k := by rw [← before]; rfl
  have slot (k : Fin 8) : u.slot k = Table.at s.working.arms k := by rw [← before]; rfl
  have same : fires = fun k => !Table.at u.arm.fired k && u.watchesCue a.cue k := by
    funext k
    dsimp only [fires]
    rw [flag, State.watchesCue, slot]
    cases Table.at s.working.arms k with
    | none => rfl
    | some d => rw [Option.any_some, onCueDone_eq]
  refine ⟨_, taken, ?_, ?_, fun k => ?_, fun idle => ?_, ?_⟩
  · have waits := fireSlots_inbox (slots.filter (u.watchesCue a.cue)) u
    rwa [← before] at waits ⊢
  · refine Acted.onlyArmed (Acted.trans ?_ (fireSlots_acted _ u))
    rw [← before]
    exact .setArm _ s
  · cases armed : Table.at s.working.arms k with
    | none =>
      have kept := arrival_empty (satisfied := u.watchesCue a.cue) ((slot k).trans armed)
      have still : fires k = false := by dsimp only [fires]; rw [armed, Bool.and_false]
      refine ⟨by rw [kept.fired, flag, still, Bool.or_false], ?_⟩
      exact kept.slot.trans ((slot k).trans armed)
    | some d =>
      obtain ⟨fired, after, _⟩ := arrival_armed (satisfied := u.watchesCue a.cue) ((slot k).trans armed)
      refine ⟨?_, ?_⟩
      · rw [fired, same]
        dsimp only
        rw [flag]
        cases Table.at s.arm.fired k <;> simp
      · rw [same]
        exact after
  · refine Eq.trans (fireSlots_idle fun k hk => ?_) before.symm
    have still : fires k = false := idle k
    have sat : u.watchesCue a.cue k = true := by simpa using (List.mem_filter.mp hk).2
    rw [same] at still
    dsimp only at still
    rw [sat, Bool.and_true] at still
    exact .inl (by simpa using still)
  · rw [same]
    have all := fireSlots_fireAll (u.watchesCue a.cue) u
    rwa [← before] at all ⊢

end Sys2Proof.Machine
end

section
/-! SUPPORT. A frame event at the arm monitor: what comes before its snapshot, and the snapshot itself (R26, R104, R105, R110,
R117). -/

namespace Sys2Proof.Machine

section
variable {s t : State} {j : Fin 8} {d : ArmDef} {n : Nat} {p : Snapshot}

/-! ## The CUE_DONEs before the snapshot -/

/-- The slot does not watch for the completion of a cue. -/
def Unwatched (j : Fin 8) (s : State) : Prop := ∀ n, s.watchesCue n j = false

theorem Unwatched.of_kept (h : Unwatched j s) (kept : SlotKept j s t) : Unwatched j t := fun n => by
  have := h n
  unfold State.watchesCue at this ⊢
  rwa [kept.slot]

theorem takeArrival_kept (n : Nat) (h : Unwatched j s) : SlotKept j s (takeArrival n s) := by
  rw [takeArrival_eq]
  exact (arrival_slot _ s j).2 (.inr (by rw [h n, Bool.and_false]))

theorem takeAhead_kept (h : Unwatched j s) : SlotKept j s (takeAhead s) := by
  have fold : ∀ (l : List Arrival) (u : State), Unwatched j u →
      SlotKept j u (l.foldl (fun s a => takeArrival a.cue s) u) := by
    intro l
    induction l with
    | nil => exact fun u _ => .refl j u
    | cons a rest ih =>
      intro u un
      have first := takeArrival_kept a.cue un
      exact first.trans (ih _ (un.of_kept first))
  have cleared : SlotKept j s (s.setArm { s.arm with inbox := s.arm.inbox.filter fun a => !a.ahead }) := ⟨rfl, rfl, rfl⟩
  exact cleared.trans (fold _ _ (h.of_kept cleared))

theorem takeAllAhead_kept (h : Unwatched j s) : SlotKept j s (takeAllAhead s) := by
  have fold : ∀ (l : List Nat) (u : State), Unwatched j u → SlotKept j u (l.foldl (fun s _ => takeAhead s) u) := by
    intro l
    induction l with
    | nil => exact fun u _ => .refl j u
    | cons a rest ih =>
      intro u un
      have first := takeAhead_kept un
      exact first.trans (ih _ (un.of_kept first))
  exact fold _ s h

/-- The slot holds `d` still, or has fired in mode ONCE. -/
def HeldOrFired (j : Fin 8) (d : ArmDef) (s : State) : Prop := s.slot j = some d ∨ (d.mode = .once ∧ s.slot j = none)

theorem fireSlots_held (satisfied : Fin 8 → Bool) (h : HeldOrFired j d s) :
    HeldOrFired j d (fireSlots (slots.filter satisfied) s) := by
  rcases h with armed | ⟨once, empty⟩
  · obtain ⟨_, after, _⟩ := arrival_armed (satisfied := satisfied) armed
    unfold HeldOrFired
    rw [after]
    split
    · next fires => exact .inr ⟨by simpa using (Bool.and_eq_true_iff.mp fires).2, rfl⟩
    · exact .inl rfl
  · exact .inr ⟨once, (arrival_empty empty).slot.trans empty⟩

theorem takeAhead_held (h : HeldOrFired j d s) : HeldOrFired j d (takeAhead s) := by
  have fold : ∀ (l : List Arrival) (u : State), HeldOrFired j d u →
      HeldOrFired j d (l.foldl (fun s a => takeArrival a.cue s) u) := by
    intro l
    induction l with
    | nil => exact fun u h => h
    | cons a rest ih =>
      intro u h
      refine ih (takeArrival a.cue u) ?_
      rw [takeArrival_eq]
      exact fireSlots_held _ h
  exact fold _ _ h

theorem takeAllAhead_held (h : HeldOrFired j d s) : HeldOrFired j d (takeAllAhead s) := by
  have fold : ∀ (l : List Nat) (u : State), HeldOrFired j d u →
      HeldOrFired j d (l.foldl (fun s _ => takeAhead s) u) := by
    intro l
    induction l with
    | nil => exact fun u h => h
    | cons a rest ih => exact fun u h => ih _ (takeAhead_held h)
  exact fold _ s h

/-- The rounds leave what may be taken on either side of the snapshot, and what their firings caused (R110, R117). -/
theorem takeAllAhead_inbox (s : State) : WaitsAhead (s.arm.inbox.filter fun a => !a.ahead) (takeAllAhead s) := by
  have round (u : State) (waits : WaitsAhead (s.arm.inbox.filter fun a => !a.ahead) u) :
      WaitsAhead (s.arm.inbox.filter fun a => !a.ahead) (takeAhead u) := by
    obtain ⟨more, inbox, ahead⟩ := waits
    have left : (u.arm.inbox.filter fun a => !a.ahead) = s.arm.inbox.filter fun a => !a.ahead := by
      have none_ : (more.filter fun a => !a.ahead) = [] := List.filter_eq_nil_iff.mpr fun a ha => by simp [ahead a ha]
      rw [inbox, List.filter_append, none_, List.append_nil, List.filter_filter]
      exact List.filter_congr fun a _ => Bool.and_self _
    have next := takeAhead_inbox u
    rwa [left] at next
  have fold : ∀ (l : List Nat) (u : State), WaitsAhead (s.arm.inbox.filter fun a => !a.ahead) u →
      WaitsAhead (s.arm.inbox.filter fun a => !a.ahead) (l.foldl (fun s _ => takeAhead s) u) := by
    intro l
    induction l with
    | nil => exact fun u h => h
    | cons a rest ih => exact fun u h => ih _ (round u h)
  unfold takeAllAhead
  rw [List.range_succ_eq_map, List.foldl_cons]
  exact fold _ _ (takeAhead_inbox s)

/-! ## The snapshot -/

/-- The snapshot satisfies the condition of the slot (R104, R105). -/
def State.shows (p : Snapshot) (s : State) (k : Fin 8) : Bool :=
  (s.slot k).any fun d => d.condition.onSnapshot p (Table.at s.arm.memory k)

/-- Flags cleared and memories updated, before the slots fire (R110 steps 1 and 2). -/
def State.judged (p : Snapshot) (s : State) : State :=
  s.setArm { s.arm with
    fired := Vector.replicate 8 false
    memory := tabulate fun k =>
      (s.slot k).elim (Table.at s.arm.memory k) fun d => d.condition.memoryAfter p (Table.at s.arm.memory k) }

theorem takeSnapshot_eq (p : Snapshot) (s : State) :
    takeSnapshot p s = fireSlots (slots.filter (s.shows p)) (s.judged p) := by
  have shows : s.shows p = fun k => match s.slot k with
      | some d => d.condition.onSnapshot p (Table.at s.arm.memory k)
      | none => false := by
    funext k
    unfold State.shows
    cases s.slot k <;> rfl
  have memory : (tabulate fun k => (s.slot k).elim (Table.at s.arm.memory k)
        fun d => d.condition.memoryAfter p (Table.at s.arm.memory k))
      = tabulate fun k => match s.slot k with
        | some d => d.condition.memoryAfter p (Table.at s.arm.memory k)
        | none => Table.at s.arm.memory k := by
    refine congrArg tabulate (funext fun k => ?_)
    cases s.slot k <;> rfl
  rw [shows, State.judged, memory]
  rfl

theorem judged_fired (j : Fin 8) : Table.at (s.judged p).arm.fired j = false := Table.at_replicate false j

theorem judged_slot (j : Fin 8) : (s.judged p).slot j = s.slot j := rfl

theorem judged_memory (armed : s.slot j = some d) :
    Table.at (s.judged p).arm.memory j = d.condition.memoryAfter p (Table.at s.arm.memory j) := by
  unfold State.judged
  rw [State.setArm_arm]
  dsimp only
  rw [at_tabulate, armed]
  rfl

/-- A slot that is ARMED when the snapshot is taken. -/
theorem takeSnapshot_armed (armed : s.slot j = some d) :
    let fires := d.condition.onSnapshot p (Table.at s.arm.memory j)
    Table.at (takeSnapshot p s).arm.fired j = fires
      ∧ (takeSnapshot p s).slot j = (if fires && (d.mode == .once) then none else some d)
      ∧ Table.at (takeSnapshot p s).arm.memory j = if fires && (d.mode == .once) then none
        else d.condition.memoryAfter p (Table.at s.arm.memory j) := by
  have sat : s.shows p j = d.condition.onSnapshot p (Table.at s.arm.memory j) := by
    unfold State.shows
    rw [armed]
    rfl
  obtain ⟨fired, slot, memory⟩ := arrival_armed (satisfied := s.shows p) (s := s.judged p) armed
  rw [judged_fired, sat] at fired slot memory
  rw [judged_memory armed] at memory
  rw [takeSnapshot_eq]
  exact ⟨fired, slot, memory⟩

theorem takeSnapshot_empty (empty : s.slot j = none) :
    Table.at (takeSnapshot p s).arm.fired j = false ∧ (takeSnapshot p s).slot j = none := by
  have kept := arrival_empty (satisfied := s.shows p) (s := s.judged p) empty
  rw [takeSnapshot_eq]
  exact ⟨kept.fired.trans (judged_fired j), kept.slot.trans empty⟩

/-! ## The frame event -/

/-- The state of a frame event when the arm monitor's turn comes: advanced, published and composed (R24 to R27). -/
def frameMiddle (s : State) : State :=
  compose s.published ((putAhead s.arm.inbox.length (frameAdvance (startFrameTimer s))).setFade
    { (frameAdvance (startFrameTimer s)).fade with snapshot := some s.published })

/-- The state of a frame event when its snapshot reaches the arm monitor (R110, R117). -/
def beforeSnapshot (s : State) : State := takeAllAhead (frameMiddle s)

theorem frameEvent_eq (s : State) : frameEvent s = takeSnapshot s.published (beforeSnapshot s) := by
  have now := (frameAdvance_played (startFrameTimer s)).now
  unfold frameEvent publish beforeSnapshot frameMiddle State.published
  dsimp only
  generalize frameAdvance (startFrameTimer s) = t at now ⊢
  rw [show (putAhead s.arm.inbox.length t).now = s.now from now]
  rfl

theorem compose_kept (p : Snapshot) (s : State) (j : Fin 8) : SlotKept j s (compose p s) := by
  rw [compose_frame]
  exact ⟨rfl, rfl, rfl⟩

theorem publishing_kept (old : Nat) (f : FadeEngine) (s : State) (j : Fin 8) : SlotKept j s ((putAhead old s).setFade f) :=
  ⟨rfl, rfl, rfl⟩

theorem startFrameTimer_kept (s : State) (j : Fin 8) : SlotKept j s (startFrameTimer s) := ⟨rfl, rfl, rfl⟩

theorem frameMiddle_kept (j : Fin 8) : SlotKept j s (frameMiddle s) :=
  (((startFrameTimer_kept s j).trans ((frameAdvance_played _).slotKept j)).trans (publishing_kept _ _ _ j)).trans
    (compose_kept _ _ j)

theorem frameMiddle_snapshot : (frameMiddle s).fade.snapshot = some s.published := by
  unfold frameMiddle
  rw [compose_fade]
  rfl

theorem advanceChannel_runs (c : Chan) (s : State) : s.player.Runs (advanceChannel c s).player := by
  unfold advanceChannel
  split
  · exact .refl _
  · split
    · exact .refl _
    · dsimp only
      split
      · next f _ _ _ => exact (endNotice_accounted .none f.owner false
          (s.setChan c { s.chan c with level := f.target, fade := none })).toRuns
      · exact .refl _

theorem advanceChannels_runs (s : State) : s.player.Runs (advanceChannels s).player := by
  have fold : ∀ (l : List Chan) (u : State), u.player.Runs (l.foldl (fun s c => advanceChannel c s) u).player := by
    intro l
    induction l with
    | nil => exact fun u => .refl _
    | cons c rest ih => exact fun u => (advanceChannel_runs c u).trans (ih _)
  unfold advanceChannels
  exact fold channels s

theorem advanceMaster_player (s : State) : (advanceMaster s).player = s.player := by
  unfold advanceMaster
  split
  · rfl
  · dsimp only
    split <;> rfl

theorem frameAdvance_runs (s : State) : s.player.Runs (frameAdvance s).player := by
  unfold frameAdvance
  rw [advanceMaster_player]
  exact advanceChannels_runs s

theorem frameMiddle_player : (frameMiddle s).player = (frameAdvance (startFrameTimer s)).player := by
  unfold frameMiddle
  rw [compose_player, State.setFade_player, putAhead_player]

theorem frameMiddle_working : (frameMiddle s).working = s.working := by
  unfold frameMiddle
  rw [compose_working, State.setFade_working, putAhead_working, (frameAdvance_played _).working]
  rfl

theorem frameMiddle_position (law : PositionLaw s) : PositionLaw (frameMiddle s) := by
  have runs := frameAdvance_runs (startFrameTimer s)
  rw [← frameMiddle_player] at runs
  exact law.runs (s := s) runs

/-- Behind what waited, the CUE_DONEs of the completions wait to be taken before the snapshot (R117). -/
theorem frameMiddle_inbox : WaitsAhead s.arm.inbox (frameMiddle s) := by
  obtain ⟨more, inbox⟩ := (frameAdvance_played (startFrameTimer s)).inbox
  have arm : (frameMiddle s).arm.inbox
      = (putAhead s.arm.inbox.length (frameAdvance (startFrameTimer s))).arm.inbox := by
    unfold frameMiddle
    rw [compose_frame]
    rfl
  refine ⟨more.map fun a => { a with ahead := true }, ?_, by simp⟩
  rw [arm]
  exact putAhead_inbox (base := s.arm.inbox) inbox

end

end Sys2Proof.Machine
end

section
/-! SUPPORT. The snapshot of a frame event at the arm monitor (R104, R105, R110, R117). -/

namespace Sys2Proof.Machine

theorem onSnapshot_fadeProgress (p : Snapshot) (memory : Option Nat) (c : Chan) (value : Nat) :
    (Condition.fadeProgress c value).onSnapshot p memory
      = decide ((∀ prev, memory = some prev → prev < value) ∧ ∃ new, Table.at p.progress c = some new ∧ value ≤ new) := by
  unfold Condition.onSnapshot
  dsimp only
  generalize Table.at p.progress c = progress
  cases memory <;> cases progress <;> simp

section
variable {s : State} {k : Fin 8} {d : ArmDef} {p : Snapshot}

theorem beforeSnapshot_kept (h : Unwatched k s) : SlotKept k s (beforeSnapshot s) :=
  (frameMiddle_kept k).trans (takeAllAhead_kept (h.of_kept (frameMiddle_kept k)))

theorem unwatched_of_empty (empty : s.slot k = none) : Unwatched k s := fun n => by
  unfold State.watchesCue
  rw [empty]
  rfl

theorem unwatched_of_armed (armed : s.slot k = some d) (other : ∀ n, d.condition.onCueDone n = false) : Unwatched k s :=
  fun n => by
    unfold State.watchesCue
    rw [armed]
    exact other n

theorem beforeSnapshot_held (armed : s.slot k = some d) : HeldOrFired k d (beforeSnapshot s) :=
  takeAllAhead_held (.inl ((frameMiddle_kept k).slot.trans armed))

/-- A slot that holds something before the snapshot held the same before the frame event. -/
theorem slot_of_beforeSnapshot (armed : (beforeSnapshot s).slot k = some d) : s.slot k = some d := by
  cases before : s.slot k with
  | none =>
    rw [(beforeSnapshot_kept (unwatched_of_empty before)).slot, before] at armed
    cases armed
  | some x =>
    rcases beforeSnapshot_held before with held | ⟨_, empty⟩
    · exact held.symm.trans armed
    · rw [empty] at armed
      cases armed

theorem beforeSnapshot_plays : StillPlays (frameMiddle s) (beforeSnapshot s) := takeAllAhead_plays _

theorem judged_plays (p : Snapshot) (s : State) : StillPlays s (s.judged p) := setArm_plays _ s

/-- An ARMED slot that watches no cue, after the snapshot (R104, R105). -/
theorem frameEvent_armed (armed : s.slot k = some d) (other : ∀ n, d.condition.onCueDone n = false) :
    let fires := d.condition.onSnapshot s.published (Table.at s.arm.memory k)
    Table.at (frameEvent s).arm.fired k = fires
      ∧ (frameEvent s).slot k = (if fires && (d.mode == .once) then none else some d)
      ∧ Table.at (frameEvent s).arm.memory k = if fires && (d.mode == .once) then none
        else d.condition.memoryAfter s.published (Table.at s.arm.memory k) := by
  have kept := beforeSnapshot_kept (unwatched_of_armed armed other)
  rw [frameEvent_eq, ← kept.memory]
  exact takeSnapshot_armed (kept.slot.trans armed)

theorem frameEvent_empty (empty : s.slot k = none) :
    Table.at (frameEvent s).arm.fired k = false ∧ (frameEvent s).slot k = none := by
  rw [frameEvent_eq]
  exact takeSnapshot_empty ((beforeSnapshot_kept (unwatched_of_empty empty)).slot.trans empty)

/-- A slot that watches a cue is not judged, and may have fired before (R106, R110). -/
theorem frameEvent_cueComplete {n : Nat} (armed : s.slot k = some d) (watches : d.condition = .cueComplete n) :
    Table.at (frameEvent s).arm.fired k = false
      ∧ ((frameEvent s).slot k = some d ∨ (d.mode = .once ∧ (frameEvent s).slot k = none)) := by
  rw [frameEvent_eq]
  rcases beforeSnapshot_held armed with held | ⟨once, empty⟩
  · obtain ⟨fired, slot, _⟩ := takeSnapshot_armed (p := s.published) held
    rw [watches] at fired slot
    exact ⟨fired, .inl slot⟩
  · obtain ⟨fired, slot⟩ := takeSnapshot_empty (p := s.published) empty
    exact ⟨fired, .inr ⟨once, slot⟩⟩

theorem frameEvent_inbox : WaitsAhead (s.arm.inbox.filter fun a => !a.ahead) (frameEvent s) := by
  obtain ⟨more, inbox, ahead⟩ := frameMiddle_inbox (s := s)
  have left : ((frameMiddle s).arm.inbox.filter fun a => !a.ahead) = s.arm.inbox.filter fun a => !a.ahead := by
    have none_ : (more.filter fun a => !a.ahead) = [] := List.filter_eq_nil_iff.mpr fun a ha => by simp [ahead a ha]
    rw [inbox, List.filter_append, none_, List.append_nil]
  have before := takeAllAhead_inbox (frameMiddle s)
  rw [left, ← beforeSnapshot] at before
  rw [frameEvent_eq]
  exact before.trans (takeSnapshot_inbox s.published _)

theorem judged_snapshot : ((beforeSnapshot s).judged s.published).fade.snapshot = some s.published := by
  rw [(judged_plays _ _).snapshot, beforeSnapshot_plays.snapshot, frameMiddle_snapshot]

theorem frameEvent_snapshot : (frameEvent s).fade.snapshot = some s.published := by
  rw [frameEvent_eq, takeSnapshot_eq, (fireSlots_plays _ _).snapshot]
  exact judged_snapshot

/-- The slots whose flags stand after the frame event are those that the snapshot satisfied. -/
theorem frameEvent_fired (armed : (beforeSnapshot s).slot k = some d) :
    Table.at (frameEvent s).arm.fired k = (beforeSnapshot s).shows s.published k := by
  rw [frameEvent_eq, (takeSnapshot_armed armed).1]
  unfold State.shows
  rw [armed]
  rfl

theorem firing_frameEvent : firing (Table.at (frameEvent s).arm.fired) s.working
    = firingOf ((beforeSnapshot s).shows s.published) ((beforeSnapshot s).judged s.published) slots := by
  refine List.filterMap_congr fun k _ => ?_
  rw [judged_fired, judged_slot, Bool.not_false, Bool.true_and]
  cases armed : (beforeSnapshot s).slot k with
  | none =>
    have fired := (takeSnapshot_empty (p := s.published) armed).1
    rw [← frameEvent_eq] at fired
    rw [fired, if_neg Bool.false_ne_true, Option.map_none, ite_self]
  | some d =>
    rw [frameEvent_fired armed]
    have same : Table.at s.working.arms k = some d := slot_of_beforeSnapshot armed
    rw [same]

theorem mem_firingOf {satisfied : Fin 8 → Bool} {l : List (Fin 8)} {x : Fin 8 × ArmDef} (h : x ∈ firingOf satisfied s l) :
    s.slot x.1 = some x.2 := by
  obtain ⟨k, _, hk⟩ := List.mem_filterMap.mp h
  split at hk
  · obtain ⟨d, armed, rfl⟩ := Option.map_eq_some_iff.mp hk
    exact armed
  · cases hk

end

/-- Settles O38. -/
theorem snapshotFiresItsSlots : Obligations.SnapshotFiresItsSlots := by
  intro s run due
  refine ⟨frameEvent s, s.published, exec_frameEvent run due, frameEvent_snapshot, fun k d armed => ?_,
    fun k empty => ?_, frameEvent_inbox, fun inRange law position => ?_⟩
  · intro after
    have judged (other : ∀ n, d.condition.onCueDone n = false) :
        after (d.condition.onSnapshot s.published (Table.at s.arm.memory k))
          (d.condition.memoryAfter s.published (Table.at s.arm.memory k)) := frameEvent_armed armed other
    refine ⟨fun c threshold prev condition memory => ?_, fun c threshold prev condition memory => ?_,
      fun c value condition => ?_, fun i edge condition => ?_, fun n watches => frameEvent_cueComplete armed watches⟩
    · rw [condition, memory] at judged
      exact judged fun _ => rfl
    · rw [condition, memory] at judged
      exact judged fun _ => rfl
    · rw [condition, onSnapshot_fadeProgress] at judged
      exact judged fun _ => rfl
    · rw [condition] at judged
      exact judged fun _ => rfl
  · obtain ⟨fired, slot⟩ := frameEvent_empty (s := s) empty
    exact ⟨slot, fired⟩
  · rw [firing_frameEvent] at inRange ⊢
    have plays := beforeSnapshot_plays (s := s)
    have listed : CueListLaw (frameMiddle s).working := by rwa [frameMiddle_working]
    have cues := plays.cues listed
    have stands := plays.position listed (frameMiddle_position position)
    have event : frameEvent s = fireSlots (slots.filter ((beforeSnapshot s).shows s.published))
        ((beforeSnapshot s).judged s.published) := by rw [frameEvent_eq, takeSnapshot_eq]
    have snapshot := judged_snapshot (s := s)
    rw [event]
    generalize beforeSnapshot s = v at *
    exact ⟨v.judged s.published, judged_fired, snapshot, fun x hx => mem_firingOf hx,
      fireSlots_order _ (List.nodup_finRange 8) ((judged_plays _ _).cues cues)
        ((judged_plays _ _).position cues stands) inRange⟩

end Sys2Proof.Machine
end

section
/-! SUPPORT. The inputs: the samples of the lines, and what a debounce wait that has run its length does (R119 to R126). -/

namespace Sys2Proof.Machine

section
variable {i : Input} {l : Level} {s t u : State} {w : Wait} {k : Fin 8} {d : ArmDef} {active playerFirst : Bool}

/-! ## Sampling -/

theorem lineGoes_unseen (h : s.clock.micro ≠ 0 ∨ Table.at s.inputs.sampled i = true ∨ l = Table.at s.inputs.sample i) :
    lineGoes i l s = setLevel i l s := by
  unfold lineGoes
  refine if_neg fun seen => ?_
  obtain ⟨seen, moved⟩ := Bool.and_eq_true_iff.mp seen
  obtain ⟨first, new⟩ := Bool.and_eq_true_iff.mp seen
  rcases h with later | sampled | same
  · exact later (of_decide_eq_true first)
  · have : (!Table.at s.inputs.sampled i) = true := new
    rw [sampled] at this
    cases this
  · exact of_decide_eq_true moved same

theorem lineGoes_seen (first : s.clock.micro = 0) (new : Table.at s.inputs.sampled i = false)
    (moved : l ≠ Table.at s.inputs.sample i) : lineGoes i l s = lineChange i l (setLevel i l s) := by
  unfold lineGoes
  refine if_pos (Bool.and_eq_true_iff.mpr ⟨Bool.and_eq_true_iff.mpr ⟨decide_eq_true first, ?_⟩, decide_eq_true moved⟩)
  change (!Table.at s.inputs.sampled i) = true
  rw [new]
  rfl

theorem exec_inputLineChange_stopped (stopped : s.phase ≠ .running) :
    exec (.inputLineChange i l) s = .next (setLevel i l s) := by
  change Host.Outcome.next (if s.runs then lineGoes i l s else setLevel i l s) = _
  rw [State.runs, if_neg (by simpa using stopped)]

theorem exec_inputLineChange_running (run : s.phase = .running) :
    exec (.inputLineChange i l) s = .next (lineGoes i l s) := by
  change Host.Outcome.next (if s.runs then lineGoes i l s else setLevel i l s) = _
  rw [State.runs, if_pos (by simpa using run)]

theorem lineChange_starts (none_ : Table.at s.inputs.wait i = none) (away : l ≠ Table.at s.inputs.level i) :
    s.waitAfter i l = some ⟨s.now, s.working.params.debounce⟩ := by
  unfold State.waitAfter
  rw [none_]
  exact if_neg away

theorem lineChange_discards (waits : Table.at s.inputs.wait i = some w) : s.waitAfter i l = none := by
  unfold State.waitAfter
  rw [waits]

theorem mem_dueIf {due : Bool} {c x : Instr} : x ∈ dueIf due c ↔ due = true ∧ x = c := by
  unfold dueIf
  cases due <;> simp

theorem lineChange_not_debounce (j : Input) : Instr.inputLineChange i l ∉ dueDebounce s j := by
  unfold dueDebounce
  split
  · split <;> simp
  · simp

theorem lineChange_sample {j : Input} : Instr.inputLineChange i (Table.at s.pins.lines i) ∈ dueSample s j
    ↔ j = i ∧ s.clock.micro = 0 ∧ Table.at s.inputs.sampled i = false
      ∧ Table.at s.pins.lines i ≠ Table.at s.inputs.sample i := by
  unfold dueSample State.sampleOpen
  rw [mem_dueIf]
  simp only [Bool.and_eq_true, decide_eq_true_eq, Bool.not_eq_true', Instr.inputLineChange.injEq, ne_eq]
  constructor
  · rintro ⟨⟨⟨first, new⟩, moved⟩, rfl, _⟩
    exact ⟨rfl, first, new, moved⟩
  · rintro ⟨rfl, first, new, moved⟩
    exact ⟨⟨⟨first, new⟩, moved⟩, rfl, rfl⟩

theorem lineChange_due (run : s.phase = .running) : Instr.inputLineChange i (Table.at s.pins.lines i) ∈ dueEvents s
    ↔ s.clock.micro = 0 ∧ Table.at s.inputs.sampled i = false
      ∧ Table.at s.pins.lines i ≠ Table.at s.inputs.sample i := by
  have hrun : s.runs = true := decide_eq_true run
  unfold dueEvents
  rw [hrun, Bool.not_true, if_neg Bool.false_ne_true]
  simp only [List.mem_append, mem_dueIf, List.mem_flatMap, lineChange_not_debounce, lineChange_sample, inputList,
    List.mem_finRange, reduceCtorEq, and_false, or_false, false_or, true_and, exists_const, exists_eq_left]

/-! ## Input events at the arm monitor -/

/-- The change of input `i` satisfies the slot (R103). -/
def State.seesInput (i : Input) (active : Bool) (s : State) (k : Fin 8) : Bool :=
  (s.slot k).any fun d => d.condition.onInput i active

theorem takeInputEvent_eq (i : Input) (active : Bool) (s : State) :
    takeInputEvent i active s = fireSlots (slots.filter (s.seesInput i active)) s := by
  unfold takeInputEvent
  refine congrArg (fun f => fireSlots (slots.filter f) s) (funext fun k => ?_)
  unfold State.seesInput
  cases s.slot k <;> rfl

theorem onInput_eq (i : Input) (active : Bool) (c : Condition) : c.onInput i active
    = (c == .inputEdge i .both || (active && (c == .inputEdge i .rise)) || (!active && (c == .inputEdge i .fall))) := by
  rw [Bool.eq_iff_iff]
  cases c with
  | inputEdge j edge =>
    cases edge <;> cases active <;> simp [Condition.onInput]
  | levelCross c threshold dir => simp [Condition.onInput]
  | fadeProgress c value => simp [Condition.onInput]
  | cueComplete n => simp [Condition.onInput]

theorem inputFires_eq (i : Input) (active : Bool) (s : State) :
    inputFires i active s = fun k => !Table.at s.arm.fired k && s.seesInput i active k := by
  funext k
  unfold inputFires State.seesInput State.slot
  cases Table.at s.working.arms k with
  | none => rfl
  | some d => rw [Option.any_some, onInput_eq]

theorem takeInputEvent_fires (i : Input) (active : Bool) (s : State) :
    FireAll (inputFires i active s) s (takeInputEvent i active s) := by
  rw [inputFires_eq, takeInputEvent_eq]
  exact fireSlots_fireAll _ s

theorem takeInputEvent_plays (i : Input) (active : Bool) (s : State) : StillPlays s (takeInputEvent i active s) :=
  fireSlots_plays _ s

theorem takeInputEvent_idle (empty : ∀ k, s.slot k = none) : takeInputEvent i active s = s := by
  rw [takeInputEvent_eq]
  exact fireSlots_idle fun k _ => .inr (empty k)

/-- The slot took the event: fired, or as it stood (R103, R108). -/
def TookInput (fires : Bool) (k : Fin 8) (s t : State) : Prop :=
  Table.at t.arm.fired k = (Table.at s.arm.fired k || fires)
    ∧ t.slot k = (s.slot k).bind fun d => if fires && (d.mode == .once) then none else some d

theorem takeInputEvent_took (i : Input) (active : Bool) (s : State) (k : Fin 8) :
    TookInput (inputFires i active s k) k s (takeInputEvent i active s) := by
  rw [inputFires_eq, takeInputEvent_eq]
  unfold TookInput
  dsimp only
  cases armed : s.slot k with
  | none =>
    have kept := arrival_empty (satisfied := s.seesInput i active) armed
    have blind : s.seesInput i active k = false := by
      unfold State.seesInput
      rw [armed]
      rfl
    exact ⟨by rw [kept.fired, blind, Bool.and_false, Bool.or_false], kept.slot.trans armed⟩
  | some d =>
    obtain ⟨fired, slot, _⟩ := arrival_armed (satisfied := s.seesInput i active) armed
    refine ⟨?_, slot⟩
    rw [fired]
    cases Table.at s.arm.fired k <;> simp

theorem SlotKept.took (kept : SlotKept k s t) : TookInput false k s t := by
  refine ⟨by rw [kept.fired, Bool.or_false], ?_⟩
  rw [kept.slot]
  cases s.slot k <;> simp

theorem TookInput.after {fires : Bool} (h : TookInput fires k s t) (kept : SlotKept k t u) : TookInput fires k s u :=
  ⟨kept.fired.trans h.1, kept.slot.trans h.2⟩

theorem TookInput.before {fires : Bool} (kept : SlotKept k s t) (h : TookInput fires k t u) : TookInput fires k s u := by
  obtain ⟨fired, slot⟩ := h
  unfold TookInput
  rw [fired, slot, kept.fired, kept.slot]
  exact ⟨rfl, rfl⟩

theorem inputFires_congr (kept : SlotKept k s t) : inputFires i active t k = inputFires i active s k := by
  rw [inputFires_eq, inputFires_eq]
  unfold State.seesInput
  dsimp only
  rw [kept.fired, kept.slot]

/-! ## The delivery -/

theorem inputGo_kept (active : Bool) (s : State) (k : Fin 8) : SlotKept k s (inputGo active s) := by
  unfold inputGo
  split
  · exact (goOrListEnd_played _ s).slotKept k
  · exact .refl k s

theorem deliverInput_unused (role : Table.at s.working.params.role i = .unused) : deliverInput i active playerFirst s = s := by
  unfold deliverInput
  rw [role]

theorem deliverInput_trigger (role : Table.at s.working.params.role i = .trigger) :
    deliverInput i active playerFirst s = takeInputEvent i active s := by
  unfold deliverInput
  rw [role]

theorem deliverInput_blackout (role : Table.at s.working.params.role i = .blackout) :
    deliverInput i active playerFirst s = handBlackout (takeInputEvent i active s) := by
  unfold deliverInput
  rw [role]

theorem deliverInput_go (role : Table.at s.working.params.role i = .go) : deliverInput i active playerFirst s
    = if playerFirst then takeInputEvent i active (inputGo active s) else inputGo active (takeInputEvent i active s) := by
  unfold deliverInput
  rw [role]

theorem handBlackout_kept (s : State) (k : Fin 8) : SlotKept k s (handBlackout s) := ⟨rfl, rfl, rfl⟩

/-- What the delivery of an input event leaves of a slot (R122 to R125). -/
theorem deliverInput_took (i : Input) (active playerFirst : Bool) (s : State) (k : Fin 8) :
    TookInput (decide (Table.at s.working.params.role i ≠ .unused) && inputFires i active s k) k s
      (deliverInput i active playerFirst s) := by
  cases role : Table.at s.working.params.role i with
  | unused =>
    rw [deliverInput_unused role]
    exact (SlotKept.refl k s).took
  | trigger =>
    rw [deliverInput_trigger role]
    exact takeInputEvent_took i active s k
  | blackout =>
    rw [deliverInput_blackout role]
    exact (takeInputEvent_took i active s k).after (handBlackout_kept _ k)
  | go =>
    rw [deliverInput_go role]
    split
    · have kept := inputGo_kept active s k
      have took := takeInputEvent_took i active (inputGo active s) k
      rw [inputFires_congr kept] at took
      exact .before kept took
    · exact (takeInputEvent_took i active s k).after (inputGo_kept active _ k)

end

end Sys2Proof.Machine
end

section
/-! SUPPORT. The end of a debounce wait: INPUT_CHANGE, the delivery by role, and a GO input (R120 to R126). -/

namespace Sys2Proof.Machine

section
variable {i : Input} {s t u : State} {w : Wait} {k : Fin 8} {active playerFirst : Bool} {mask : BitVec 9} {now : Time}

/-! ## The end of the wait -/

theorem exec_debounceExpiry_due (run : s.phase = .running) (waits : Table.at s.inputs.wait i = some w)
    (due : w.length ≤ since s.now w.start) :
    exec (.debounceExpiry i playerFirst) s = .next (expireDebounce i playerFirst s) := by
  have hrun : s.runs = true := decide_eq_true run
  have hdue : s.debounceDue i = true := by
    unfold State.debounceDue
    rw [waits]
    exact decide_eq_true due
  change execDebounceExpiry i playerFirst s = _
  unfold execDebounceExpiry
  rw [hrun, hdue]
  rfl

theorem exec_debounceExpiry_waits (waits : Table.at s.inputs.wait i = some w) (early : since s.now w.start < w.length) :
    exec (.debounceExpiry i playerFirst) s = .next s := by
  have hdue : s.debounceDue i = false := by
    unfold State.debounceDue
    rw [waits]
    exact decide_eq_false (by omega)
  change execDebounceExpiry i playerFirst s = _
  unfold execDebounceExpiry
  rw [hdue, Bool.and_false]
  rfl

/-- The state in which an input event is delivered: flipped, and INPUT_CHANGE offered if the input reports (R126). -/
def inputReported (i : Input) (s : State) : State := { s with
  inputs := (flipped i s).inputs
  report := if Table.at s.working.params.report i then s.report.offer s.working.params.reportEnable s.now
    (.inputChange (BitVec.ofNat 4 (2 ^ i.val)) (flipped i s).activeMask 0) else s.report }

theorem expireDebounce_eq (i : Input) (playerFirst : Bool) (s : State) : expireDebounce i playerFirst s
    = deliverInput i ((flipped i s).active i) playerFirst (inputReported i s) := by
  have reported : (if Table.at (flipped i s).working.params.report i then
      offer (.inputChange (onlyInput i) (flipped i s).activeMask 0) (flipped i s) else flipped i s) = inputReported i s := by
    unfold inputReported
    by_cases reports : Table.at s.working.params.report i = true
    · rw [if_pos reports]
      exact if_pos reports
    · rw [if_neg reports]
      exact if_neg reports
  unfold expireDebounce inputEvent
  dsimp only
  rw [← reported]
  rfl

theorem inputReported_kept (i : Input) (s : State) (k : Fin 8) : SlotKept k s (inputReported i s) := ⟨rfl, rfl, rfl⟩

/-! ## What the delivery leaves -/

/-- The lines, the clock and the parameters stand, and the report unit has taken offers. -/
structure Delivered (s t : State) : Prop where
  inputs : t.inputs = s.inputs
  params : t.working.params = s.working.params
  clock : t.clock = s.clock
  pins : t.pins = s.pins
  host : t.comp.hostBlackout = s.comp.hostBlackout
  report : Offered s.working.params.reportEnable s.now s.report t.report

theorem Acted.delivered (h : Acted s t) : Delivered s t :=
  ⟨h.inputs, h.params, h.clock, h.pins, by rw [h.comp], h.report⟩

theorem deliverInput_acted (role : Table.at s.working.params.role i ≠ .blackout) :
    Acted s (deliverInput i active playerFirst s) := by
  unfold deliverInput
  split
  · exact .refl s
  · exact takeInputEvent_acted i active s
  · split
    · exact (inputGo_acted active s).trans (takeInputEvent_acted i active _)
    · exact (takeInputEvent_acted i active s).trans (inputGo_acted active _)
  · next eq => exact absurd eq role

theorem deliverInput_delivered (i : Input) (active playerFirst : Bool) (s : State) :
    Delivered s (deliverInput i active playerFirst s) := by
  by_cases role : Table.at s.working.params.role i = .blackout
  · rw [deliverInput_blackout role]
    obtain ⟨inputs, params, clock, pins, host, report⟩ := (takeInputEvent_acted i active s).delivered
    exact ⟨inputs, params, clock, pins, host, report⟩
  · exact (deliverInput_acted role).delivered

theorem Delivered.active_eq (h : Delivered s t) (j : Input) : t.active j = s.active j := by
  unfold State.active
  rw [h.params, h.inputs]

theorem Delivered.activeMask (h : Delivered s t) : t.activeMask = s.activeMask := by
  unfold State.activeMask
  rw [show t.active = s.active from funext h.active_eq]

theorem offered_list {x y : ReportUnit} (h : Offered mask now x y) :
    ∃ l : List Report, y = l.foldl (fun u d => u.offer mask now d) x := by
  induction h with
  | refl => exact ⟨[], rfl⟩
  | tail _ step ih =>
    obtain ⟨l, rfl⟩ := ih
    obtain ⟨d, rfl⟩ := step
    exact ⟨l ++ [d], by rw [List.foldl_append]; rfl⟩

/-- The reports of an input event: INPUT_CHANGE before anything else, and for an UNUSED input nothing more (R126). -/
theorem deliverInput_report (i : Input) (active playerFirst : Bool) (s : State) : ∃ later : List Report,
    (deliverInput i active playerFirst (inputReported i s)).report = (if Table.at s.working.params.report i
        then .inputChange (BitVec.ofNat 4 (2 ^ i.val)) (flipped i s).activeMask 0 :: later else later).foldl
        (fun u d => u.offer s.working.params.reportEnable s.now d) s.report
      ∧ (Table.at s.working.params.role i = .unused → later = []) := by
  have first (later : List Report) :
      later.foldl (fun u d => u.offer s.working.params.reportEnable s.now d) (inputReported i s).report
      = (if Table.at s.working.params.report i
        then .inputChange (BitVec.ofNat 4 (2 ^ i.val)) (flipped i s).activeMask 0 :: later else later).foldl
        (fun u d => u.offer s.working.params.reportEnable s.now d) s.report := by
    unfold inputReported
    dsimp only
    split <;> rfl
  by_cases unused : Table.at s.working.params.role i = .unused
  · exact ⟨[], by rw [deliverInput_unused (s := inputReported i s) unused, ← first]; rfl, fun _ => rfl⟩
  · obtain ⟨later, eq⟩ := offered_list (deliverInput_delivered i active playerFirst (inputReported i s)).report
    exact ⟨later, eq.trans (first later), fun no => absurd no unused⟩

theorem flipped_active (i : Input) (s : State) : (flipped i s).active i
    = activeAt (Table.at s.working.params.polarity i) (Level.flip (Table.at s.inputs.level i)) :=
  congrArg (activeAt _) (Table.at_put_self _ _ _)

theorem inputFires_reported (i : Input) (active : Bool) (s : State) :
    inputFires i active (inputReported i s) = inputFires i active s :=
  funext fun k => inputFires_congr (inputReported_kept i s k)

end

/-- Settles O49. -/
theorem inputsAreDebounced : Obligations.InputsAreDebounced := by
  refine ⟨⟨fun i l s => ?_, fun i s run => lineChange_due run⟩, fun i playerFirst s w run waits => ?_⟩
  · intro moved
    refine ⟨exec_inputLineChange_stopped, fun run => ⟨fun unseen => ?_, fun first new other => ⟨fun none_ away => ?_,
      fun w waits => ?_⟩⟩⟩
    · rw [exec_inputLineChange_running run, lineGoes_unseen unseen]
      rfl
    · rw [exec_inputLineChange_running run, lineGoes_seen first new other, lineChange,
        lineChange_starts (s := setLevel i l s) none_ away]
      rfl
    · rw [exec_inputLineChange_running run, lineGoes_seen first new other, lineChange,
        lineChange_discards (s := setLevel i l s) waits]
      rfl
  · intro role level active inputs fires
    refine ⟨fun due => ⟨expireDebounce i playerFirst s, exec_debounceExpiry_due run waits due, ?_⟩,
      exec_debounceExpiry_waits waits⟩
    have same : (flipped i s).active i = active := flipped_active i s
    have delivered := deliverInput_delivered i active playerFirst (inputReported i s)
    have mask : (deliverInput i active playerFirst (inputReported i s)).activeMask = (flipped i s).activeMask :=
      delivered.activeMask
    obtain ⟨later, report, quiet⟩ := deliverInput_report i active playerFirst s
    have event := takeInputEvent_fires i active (inputReported i s)
    rw [inputFires_reported] at event
    have all (used : role ≠ .unused) : fires = inputFires i active s := funext fun k => by
      dsimp only [fires]
      rw [decide_eq_true used, Bool.true_and]
    rw [expireDebounce_eq, same, mask]
    refine ⟨delivered.inputs, ⟨later, report, fun unused => ⟨quiet unused, deliverInput_unused unused⟩, fun trigger => ?_,
      fun black => ?_⟩, fun k => ?_, fun black => ?_, fun other => (deliverInput_acted (s := inputReported i s) other).comp,
      delivered.host, delivered.clock, delivered.pins⟩
    · rw [all (by rw [trigger]; simp), deliverInput_trigger (s := inputReported i s) trigger]
      exact event
    · rw [all (by rw [black]; simp), deliverInput_blackout (s := inputReported i s) black]
      exact ⟨_, event, rfl⟩
    · obtain ⟨fired, slot⟩ := deliverInput_took i active playerFirst (inputReported i s) k
      rw [inputFires_reported] at fired slot
      refine ⟨fired, slot.trans ?_⟩
      change (Table.at s.working.arms k).bind _ = _
      cases Table.at s.working.arms k <;> rfl
    · rw [deliverInput_blackout (s := inputReported i s) black]
      rfl

end Sys2Proof.Machine
end

section
/-! SUPPORT. A GO input that becomes active (R124). -/

namespace Sys2Proof.Machine

section
variable {s : State} {source : Source}

theorem goOrListEnd_runs_next (law : CueListLaw s.working) (position : PositionLaw s) :
    NextCueOrListEnd source s (goOrListEnd source s) := by
  refine ⟨fun q listed chosen => ?_, fun last => goOrListEnd_last last⟩
  rw [goOrListEnd_chosen law listed chosen]
  exact goneTo_starts (law.channels listed) position

theorem inputGo_active : inputGo true s = goOrListEnd .input s := if_pos rfl

theorem inputGo_inactive : inputGo false s = s := if_neg Bool.false_ne_true

/-- Without ARMED slots an input event goes to the player alone, and there for an active GO input alone. -/
theorem deliverInput_unarmed {i : Input} {active playerFirst : Bool} (empty : ∀ k, s.slot k = none)
    (role : Table.at s.working.params.role i = .go) : deliverInput i active playerFirst s = inputGo active s := by
  have after : ∀ k, (inputGo active s).slot k = none := fun k => (inputGo_kept active s k).slot.trans (empty k)
  rw [deliverInput_go role, takeInputEvent_idle empty, takeInputEvent_idle after, ite_self]

theorem deliverInput_player_kept {i : Input} {active playerFirst : Bool} (empty : ∀ k, s.slot k = none)
    (other : Table.at s.working.params.role i ≠ .go ∨ active = false) :
    (deliverInput i active playerFirst s).player = s.player ∧ (deliverInput i active playerFirst s).fade = s.fade := by
  cases role : Table.at s.working.params.role i with
  | unused =>
    rw [deliverInput_unused role]
    exact ⟨rfl, rfl⟩
  | trigger =>
    rw [deliverInput_trigger role, takeInputEvent_idle empty]
    exact ⟨rfl, rfl⟩
  | blackout =>
    rw [deliverInput_blackout role, takeInputEvent_idle empty]
    exact ⟨rfl, rfl⟩
  | go =>
    rw [deliverInput_unarmed empty role, other.resolve_left (by simp [role]), inputGo_inactive]
    exact ⟨rfl, rfl⟩

end

/-- Settles O50. -/
theorem goInputStartsTheNextCue : Obligations.GoInputStartsTheNextCue := by
  intro i playerFirst s w run waits due law position role
  refine ⟨expireDebounce i playerFirst s, exec_debounceExpiry_due run waits due, ?_⟩
  rw [expireDebounce_eq]
  intro active reported
  have delivered := deliverInput_delivered i ((flipped i s).active i) playerFirst (inputReported i s)
  have same : active = (flipped i s).active i := delivered.active_eq i
  have state : reported = inputReported i s := by
    unfold inputReported
    dsimp only [reported]
    rw [delivered.inputs, delivered.activeMask]
    rfl
  clear_value active reported
  subst state
  rw [← same]
  clear same delivered
  have law' : CueListLaw (inputReported i s).working := law
  have position' : PositionLaw (inputReported i s) := position.congr rfl rfl rfl
  have role' : Table.at (inputReported i s).working.params.role i = role := rfl
  have empty : (∀ k, Table.at s.working.arms k = none) → ∀ k, (inputReported i s).slot k = none := fun h => h
  have player : (inputReported i s).player = s.player := rfl
  have fade : (inputReported i s).fade = s.fade := rfl
  generalize inputReported i s = r at *
  refine ⟨fun go on first => ?_, fun go on first => ?_, fun alone => ?_, fun none_ => ⟨fun go on => ?_, fun other => ?_⟩⟩
  · subst on first
    rw [deliverInput_go (role'.trans go), if_pos rfl, inputGo_active]
    exact ⟨_, goOrListEnd_runs_next law' position', rfl, takeInputEvent_fires i true _⟩
  · subst on first
    have plays := takeInputEvent_plays i true r
    rw [deliverInput_go (role'.trans go), if_neg Bool.false_ne_true, inputGo_active]
    exact ⟨_, rfl, takeInputEvent_fires i true r,
      goOrListEnd_runs_next (plays.cues law') (plays.position law' position')⟩
  · have event : deliverInput i active playerFirst r = takeInputEvent i active r := by
      rcases alone with trigger | ⟨go, off⟩
      · exact deliverInput_trigger (role'.trans trigger)
      · rw [deliverInput_go (role'.trans go), off, inputGo_inactive, inputGo_inactive, ite_self]
    rw [event]
    exact ⟨rfl, takeInputEvent_fires i active r⟩
  · subst on
    rw [deliverInput_unarmed (empty none_) (role'.trans go), inputGo_active]
    exact goOrListEnd_runs_next law' position'
  · rw [← player, ← fade]
    exact deliverInput_player_kept (empty none_) (by rwa [role'])

end Sys2Proof.Machine
end

section
/-! SUPPORT. The advance of the channels and of the master at a frame event (R7, R15 to R17, R21, R98), and what it ends. -/

namespace Sys2Proof.Machine

/-! ## One channel -/

/-- A channel record after its advance (R7, R21). -/
def Channel.advance (w : Show) (now : Time) (r : Channel) : Channel :=
  match r.fade with
  | none => r
  | some f =>
    if f.frozen then r
    else if f.duration ≤ (f.advanced now).elapsed then { r with level := f.target, fade := none }
    else { r with level := (f.advanced now).levelNow w, fade := some (f.advanced now) }

section
variable {w : Show} {now : Time} {r : Channel} {f : Fade} {s t : State} {c : Chan}

theorem Channel.advance_empty (empty : r.fade = none) : r.advance w now = r := by
  unfold Channel.advance
  rw [empty]

theorem Channel.advance_frozen (fades : r.fade = some f) (frozen : f.frozen = true) : r.advance w now = r := by
  unfold Channel.advance
  rw [fades]
  exact if_pos frozen

theorem Channel.advance_ends (fades : r.fade = some f) (running : f.frozen = false)
    (ended : f.duration ≤ f.elapsed + since now f.lastAdvance) :
    r.advance w now = { r with level := f.target, fade := none } := by
  unfold Channel.advance
  rw [fades]
  exact (if_neg (by rw [running]; exact Bool.false_ne_true)).trans (if_pos ended)

theorem Channel.advance_runs (fades : r.fade = some f) (running : f.frozen = false)
    (more : f.elapsed + since now f.lastAdvance < f.duration) : r.advance w now
      = { r with level := (f.advanced now).levelNow w, fade := some (f.advanced now) } := by
  unfold Channel.advance
  rw [fades]
  exact (if_neg (by rw [running]; exact Bool.false_ne_true)).trans (if_neg (Nat.not_le.mpr more))

@[simp] theorem Channel.advance_park : (r.advance w now).park = r.park := by
  unfold Channel.advance
  split
  · rfl
  · split
    · rfl
    · split <;> rfl

/-- The level along the curve before the end (R15 to R17). -/
theorem levelNow_running {points : List Point} (more : f.elapsed + since now f.lastAdvance < f.duration)
    (curve : w.curve f.curve = some points) : (f.advanced now).levelNow w
      = ((f.start : Int) + (((f.target : Int) - f.start)
        * progressOn points ((f.elapsed + since now f.lastAdvance) * 1000 / f.duration)).tdiv 1000).toNat := by
  have fraction : (f.advanced now).fraction = (f.elapsed + since now f.lastAdvance) * 1000 / f.duration :=
    if_neg (Nat.not_le.mpr more)
  unfold Fade.levelNow
  rw [fraction, show w.curve (f.advanced now).curve = some points from curve, Option.getD_some]
  rfl

/-! ## Every channel -/

theorem advanceChannel_chan (c d : Chan) (s : State) :
    (advanceChannel c s).chan d = if c = d then (s.chan d).advance s.working s.now else s.chan d := by
  by_cases eq : c = d
  · subst eq
    rw [if_pos rfl]
    unfold advanceChannel Channel.advance
    cases fades : (s.chan c).fade with
    | none => rfl
    | some f =>
      dsimp only
      split
      · rfl
      · split
        · next ended =>
          simp only [endNotice_chan, State.setChan_chan, if_true]
          exact (if_pos ended).symm
        · next more =>
          simp only [State.setChan_chan, if_true]
          exact (if_neg more).symm
  · rw [if_neg eq]
    unfold advanceChannel
    split
    · rfl
    · split
      · rfl
      · dsimp only
        split <;> simp only [endNotice_chan, State.setChan_chan, if_neg eq]

theorem advanceChannels_chan (c : Chan) (s : State) : (advanceChannels s).chan c = (s.chan c).advance s.working s.now := by
  unfold advanceChannels channels
  refine (foldl_chan (state := fun u : State => u) (P := fun u => u.working = s.working ∧ u.now = s.now)
    (g := fun _ r => r.advance s.working s.now) (fun u d h => ?_) (fun u d e h => ?_) (List.nodup_finRange 24) s
    ⟨rfl, rfl⟩ c).trans (if_pos (List.mem_finRange c))
  · have played := advanceChannel_played d u
    exact ⟨played.working.trans h.1, played.now.trans h.2⟩
  · rw [advanceChannel_chan, h.1, h.2]

theorem advanceMaster_chan (c : Chan) (s : State) : (advanceMaster s).chan c = s.chan c := by
  unfold advanceMaster
  split
  · rfl
  · dsimp only
    split <;> rfl

/-- The state after the advances of a frame event (R24 steps 1 and 2). -/
def frameAdvanced (s : State) : State := frameAdvance (startFrameTimer s)

theorem frameAdvanced_chan (c : Chan) (s : State) : (frameAdvanced s).chan c = (s.chan c).advance s.working s.now := by
  unfold frameAdvanced frameAdvance
  rw [advanceMaster_chan, advanceChannels_chan]
  rfl

/-! ## The master -/

theorem advanceChannel_master (c : Chan) (s : State) : MasterKept s (advanceChannel c s) := by
  unfold advanceChannel
  split
  · exact .refl s
  · split
    · exact .refl s
    · dsimp only
      split
      · exact (setChan_master _ _ s).trans (endNotice_master _ _ _ _)
      · exact setChan_master _ _ s

theorem advanceChannels_master (s : State) : MasterKept s (advanceChannels s) := by
  have fold : ∀ (l : List Chan) (u : State), MasterKept u (l.foldl (fun s c => advanceChannel c s) u) := by
    intro l
    induction l with
    | nil => exact fun u => .refl u
    | cons c rest ih => exact fun u => (advanceChannel_master c u).trans (ih _)
  unfold advanceChannels
  exact fold channels s

theorem advanceMaster_none (none_ : s.fade.masterCtx = none) : advanceMaster s = s := by
  unfold advanceMaster
  rw [none_]

theorem advanceMaster_ends {m : MasterFade} (some_ : s.fade.masterCtx = some m)
    (ended : m.duration ≤ m.elapsed + since s.now m.lastAdvance) :
    advanceMaster s = s.setFade { s.fade with master := m.target, masterCtx := none } := by
  unfold advanceMaster
  rw [some_]
  exact if_pos ended

theorem advanceMaster_runs {m : MasterFade} (some_ : s.fade.masterCtx = some m)
    (more : m.elapsed + since s.now m.lastAdvance < m.duration) : advanceMaster s = s.setFade { s.fade with
      master := ((m.start : Int) + (((m.target : Int) - m.start)
        * (((m.elapsed + since s.now m.lastAdvance) * 1000 / m.duration : Nat) : Int)).tdiv 1000).toNat
      masterCtx := some { m with elapsed := m.elapsed + since s.now m.lastAdvance, lastAdvance := s.now } } := by
  have fraction : timeFraction (m.elapsed + since s.now m.lastAdvance) m.duration
      = (m.elapsed + since s.now m.lastAdvance) * 1000 / m.duration := if_neg (Nat.not_le.mpr more)
  unfold advanceMaster
  rw [some_]
  dsimp only
  rw [if_neg (Nat.not_le.mpr more), fraction]
  rfl

/-- The master after a frame event (R98). -/
theorem frameAdvanced_master (s : State) :
    (s.fade.masterCtx = none → (frameAdvanced s).fade.master = s.fade.master ∧ (frameAdvanced s).fade.masterCtx = none)
    ∧ ∀ m : MasterFade, s.fade.masterCtx = some m →
      (m.duration ≤ m.elapsed + since s.now m.lastAdvance →
        (frameAdvanced s).fade.master = m.target ∧ (frameAdvanced s).fade.masterCtx = none)
      ∧ (m.elapsed + since s.now m.lastAdvance < m.duration →
        (frameAdvanced s).fade.master = ((m.start : Int) + (((m.target : Int) - m.start)
          * (((m.elapsed + since s.now m.lastAdvance) * 1000 / m.duration : Nat) : Int)).tdiv 1000).toNat
        ∧ (frameAdvanced s).fade.masterCtx
          = some { m with elapsed := m.elapsed + since s.now m.lastAdvance, lastAdvance := s.now }) := by
  have kept := advanceChannels_master (startFrameTimer s)
  have now : (advanceChannels (startFrameTimer s)).now = s.now := (advanceChannels_played (startFrameTimer s)).now
  unfold frameAdvanced frameAdvance
  generalize advanceChannels (startFrameTimer s) = u at kept now
  have ctx : u.fade.masterCtx = s.fade.masterCtx := kept.ctx
  have master : u.fade.master = s.fade.master := kept.master
  rw [← ctx, ← now, ← master]
  refine ⟨fun none_ => ?_, fun m some_ => ⟨fun ended => ?_, fun more => ?_⟩⟩
  · rw [advanceMaster_none none_]
    exact ⟨rfl, none_⟩
  · rw [advanceMaster_ends some_ ended]
    exact ⟨rfl, rfl⟩
  · rw [advanceMaster_runs some_ more]
    exact ⟨rfl, rfl⟩

/-! ## What completes -/

theorem advanceChannel_ended (c : Chan) (s : State) : Ended .none false s (advanceChannel c s) := by
  unfold advanceChannel
  split
  · exact .refl s
  · split
    · exact .refl s
    · dsimp only
      split
      · exact (setChan_ended _ _ s).trans (endNotice_ended false (fun _ _ => .inl rfl) (fun _ _ => .inl rfl) _)
      · exact setChan_ended _ _ s

theorem advanceMaster_ended (s : State) : Ended .none false s (advanceMaster s) := by
  unfold advanceMaster
  split
  · exact .refl s
  · dsimp only
    split <;> exact ⟨[], .same rfl rfl rfl rfl rfl rfl⟩

theorem frameAdvance_ended (s : State) : Ended .none false s (frameAdvance s) := by
  unfold frameAdvance advanceChannels
  exact (Ended.foldl (fun s c => advanceChannel c s) (fun s c => advanceChannel_ended c s) channels s).trans
    (advanceMaster_ended _)

theorem startFrameTimer_ended (s : State) : Ended .none false s (startFrameTimer s) :=
  ⟨[], .same rfl rfl rfl rfl rfl rfl⟩

/-- What completes at a frame event (R21, R72, R90). -/
theorem frameAdvanced_ended (s : State) : Ended .none false s (frameAdvanced s) := by
  unfold frameAdvanced
  exact (startFrameTimer_ended s).trans (frameAdvance_ended _)

/-! ## A node whose slots are EMPTY -/

theorem takeAhead_unarmed (empty : ∀ k, s.slot k = none) : ∃ a, takeAhead s = s.setArm a := by
  have fold : ∀ (l : List Arrival) (u : State), (∀ k, u.slot k = none) →
      l.foldl (fun s a => takeArrival (Arrival.cue a) s) u = u := by
    intro l
    induction l with
    | nil => exact fun u _ => rfl
    | cons a rest ih =>
      intro u none_
      have first : takeArrival a.cue u = u := by
        rw [takeArrival_eq]
        exact fireSlots_idle fun k _ => .inr (none_ k)
      rw [List.foldl_cons, first]
      exact ih u none_
  exact ⟨_, fold _ _ empty⟩

theorem takeAllAhead_unarmed (empty : ∀ k, s.slot k = none) : ∃ a, takeAllAhead s = s.setArm a := by
  have fold : ∀ (l : List Nat) (u : State), (∀ k, u.slot k = none) →
      ∃ a, l.foldl (fun s _ => takeAhead s) u = u.setArm a := by
    intro l
    induction l with
    | nil => exact fun u _ => ⟨u.arm, rfl⟩
    | cons n rest ih =>
      intro u none_
      obtain ⟨a, first⟩ := takeAhead_unarmed none_
      obtain ⟨b, later⟩ := ih (u.setArm a) none_
      refine ⟨b, ?_⟩
      rw [List.foldl_cons, first, later]
      rfl
  exact fold _ s empty

theorem takeSnapshot_unarmed (p : Snapshot) (empty : ∀ k, s.slot k = none) : ∃ a, takeSnapshot p s = s.setArm a := by
  rw [takeSnapshot_eq]
  exact ⟨_, fireSlots_idle fun k _ => .inr (empty k)⟩

theorem arrivals_unarmed (p : Snapshot) (empty : ∀ k, s.slot k = none) :
    ∃ a, takeSnapshot p (takeAllAhead s) = s.setArm a := by
  obtain ⟨a, before⟩ := takeAllAhead_unarmed empty
  obtain ⟨b, after⟩ := takeSnapshot_unarmed (s := s.setArm a) p empty
  exact ⟨b, by rw [before, after]; rfl⟩

/-- Without ARMED slots a frame event is the advances and the composition (R24). -/
theorem frameEvent_unarmed (empty : ∀ k, s.slot k = none) : ∃ a, frameEvent s = (frameMiddle s).setArm a := by
  rw [frameEvent_eq, beforeSnapshot]
  exact arrivals_unarmed _ fun k => (frameMiddle_kept k).slot.trans (empty k)

end

end Sys2Proof.Machine
end

section
/-! SUPPORT. What a frame event leaves, and the snapshot it publishes (R24, R26, R27). -/

namespace Sys2Proof.Machine

section
variable {s : State} {c : Chan} {f : Fade}

/-- The snapshot is published and composed; no block but these moves (R26, R27). -/
theorem publishing (old : Nat) (p : Snapshot) (t : State) :
    let u := compose p ((putAhead old t).setFade { t.fade with snapshot := some p })
    u.fade = { t.fade with snapshot := some p } ∧ (∀ c, u.chan c = t.chan c) ∧ u.report = t.report ∧ u.clock = t.clock := by
  dsimp only
  rw [compose_frame]
  exact ⟨rfl, fun _ => rfl, rfl, rfl⟩

theorem frameMiddle_kinds (s : State) : (frameMiddle s).fade = { (frameAdvanced s).fade with snapshot := some s.published }
    ∧ (∀ c, (frameMiddle s).chan c = (frameAdvanced s).chan c) ∧ (frameMiddle s).report = (frameAdvanced s).report
    ∧ (frameMiddle s).clock = (frameAdvanced s).clock := by
  unfold frameMiddle
  rw [← frameAdvanced]
  exact publishing _ _ _

theorem frameMiddle_fade (s : State) :
    (frameMiddle s).fade = { (frameAdvanced s).fade with snapshot := some s.published } := (frameMiddle_kinds s).1

theorem frameMiddle_chan (c : Chan) (s : State) : (frameMiddle s).chan c = (s.chan c).advance s.working s.now := by
  rw [(frameMiddle_kinds s).2.1, frameAdvanced_chan]

theorem frameMiddle_report (s : State) : (frameMiddle s).report = (frameAdvanced s).report := (frameMiddle_kinds s).2.2.1

theorem frameAdvanced_played (s : State) : Played (startFrameTimer s) (frameAdvanced s) := by
  unfold frameAdvanced
  exact frameAdvance_played _

theorem frameMiddle_clock (s : State) :
    (frameMiddle s).clock = { s.clock with frameTimer := some (s.working.params.framePeriod * 1000) } := by
  rw [(frameMiddle_kinds s).2.2.2, (frameAdvanced_played s).clock]
  rfl

/-! ## The snapshot -/

theorem published_eq (s : State) : s.published = snapshotOf s.fade.chans s.now (frameAdvanced s).fade := by
  unfold State.published
  rw [← frameAdvanced]

theorem published_parked (c : Chan) (s : State) : Table.at s.published.parked c = decide ((s.chan c).park ≠ none) := by
  have park : ((frameAdvanced s).chan c).park = (s.chan c).park := by rw [frameAdvanced_chan, Channel.advance_park]
  rw [← park, ← isParked_eq, published_eq]
  generalize frameAdvanced s = t
  exact at_tabulate _ c

theorem published_level (c : Chan) (s : State) :
    Table.at s.published.levels c = ((s.chan c).advance s.working s.now).level := by
  rw [← frameAdvanced_chan, published_eq]
  generalize frameAdvanced s = t
  exact at_tabulate _ c

theorem published_progress (c : Chan) (s : State) : Table.at s.published.progress c
    = if (s.chan c).completesAt s.now then some 1000
      else ((s.chan c).advance s.working s.now).fade.map Fade.fraction := by
  rw [← frameAdvanced_chan, published_eq]
  generalize frameAdvanced s = t
  exact at_tabulate _ c

theorem published_master (s : State) : s.published.master = (frameAdvanced s).fade.master := by
  rw [published_eq]
  generalize frameAdvanced s = t
  rfl

/-! ## The compositor -/

theorem frameEvent_composed (o : Fin 40) (s : State) : Table.at (frameEvent s).comp.composed o
    = composeOutput s.published (s.comp.hostBlackout || s.comp.lineBlackout) (Table.at s.working.patch o) := by
  rw [(frameEvent_outputs s).1]
  exact at_tabulate _ o

theorem composeOutput_unpatched {p : Snapshot} {black : Bool} {o : Output} (none_ : o.source = none) :
    composeOutput p black o = 0 := by
  unfold composeOutput
  rw [none_]

theorem composeOutput_black (p : Snapshot) (o : Output) : composeOutput p true o = 0 := by
  unfold composeOutput
  split
  · rfl
  · exact if_pos rfl

theorem composeOutput_lit {p : Snapshot} {o : Output} {c : Chan} (patched : o.source = some c) : composeOutput p false o
    = let v := if Table.at p.parked c then Table.at p.levels c else Table.at p.levels c * p.master / 1000
      let x := o.law.apply o.threshold v
      if 0 < x ∧ x < o.min then o.min else x := by
  unfold composeOutput
  rw [patched]
  exact if_neg Bool.false_ne_true

theorem completesAt_empty (empty : (s.chan c).fade = none) : (s.chan c).completesAt s.now = false := by
  unfold Channel.completesAt
  rw [empty]

theorem completesAt_some (fades : (s.chan c).fade = some f) : (s.chan c).completesAt s.now
    = (!f.frozen && decide (f.duration ≤ f.elapsed + since s.now f.lastAdvance)) := by
  unfold Channel.completesAt
  rw [fades]
  rfl

end

/-- Settles O44. -/
theorem frameEventAdvancesTheFades : Obligations.FrameEventAdvancesTheFades := by
  intro s run due unarmed
  obtain ⟨a, event⟩ := frameEvent_unarmed (s := s) unarmed
  have fired (k : Fin 8) := (frameEvent_empty (s := s) (unarmed k)).1
  have chan (c : Chan) : (frameEvent s).chan c = (s.chan c).advance s.working s.now := by
    rw [event, State.setArm_chan, frameMiddle_chan]
  have fade : (frameEvent s).fade = { (frameAdvanced s).fade with snapshot := some s.published } := by
    rw [event, State.setArm_fade, frameMiddle_fade]
  have master : (frameEvent s).fade.master = (frameAdvanced s).fade.master := by rw [fade]
  have ctx : (frameEvent s).fade.masterCtx = (frameAdvanced s).fade.masterCtx := by rw [fade]
  have tags : (frameEvent s).fade.tags = (frameAdvanced s).fade.tags := by rw [fade]
  have player : (frameEvent s).player = (frameAdvanced s).player := by
    rw [event, State.setArm_player, frameMiddle_player, frameAdvanced]
  have report : (frameEvent s).report = (frameAdvanced s).report := by
    rw [event, State.setArm_report, frameMiddle_report]
  have clock : (frameEvent s).clock = { s.clock with frameTimer := some (s.working.params.framePeriod * 1000) } := by
    rw [event, State.setArm_clock, frameMiddle_clock]
  obtain ⟨still, moves⟩ := frameAdvanced_master s
  refine ⟨frameEvent s, exec_frameEvent run due, clock, fun c empty => ?_, fun c f fades frozen => ?_,
    fun c f fades running ended => ?_, fun c f points fades running more curve => ?_, fun none_ => ?_,
    fun m some_ => ?_, fired, fun live tagged => ?_⟩
  · rw [chan, Channel.advance_empty empty]
  · rw [chan, Channel.advance_frozen fades frozen]
  · rw [chan, Channel.advance_ends fades running ended]
  · intro elapsed
    rw [chan, Channel.advance_runs fades running more, levelNow_running more curve]
    rfl
  · rw [master, ctx]
    exact still none_
  · rw [master, ctx]
    exact moves m some_
  · obtain ⟨l, ends⟩ := frameAdvanced_ended s
    refine ⟨l, (ends.completions live.1 tagged.1).congr rfl (fun _ _ => .rfl) (fun _ _ => by rw [player])
      fun _ _ => by rw [tags], ?_⟩
    rw [report]
    exact (offers_iff.mp ends.offers).1

/-- Settles O45. -/
theorem frameEventComposesTheOutputs : Obligations.FrameEventComposesTheOutputs := by
  refine ⟨fun s run due => ?_, fun s run due => ?_⟩
  · obtain ⟨still, moves⟩ := frameAdvanced_master s
    refine ⟨frameEvent s, s.published, exec_frameEvent run due, frameEvent_snapshot, fun c => published_parked c s,
      fun c empty => ?_, fun c f fades frozen => ?_, fun c f fades running => ?_, fun none_ => ?_,
      fun m some_ => ⟨fun ended => ?_, fun more => ?_⟩⟩
    · rw [published_level, published_progress, completesAt_empty empty, Channel.advance_empty empty, empty]
      exact ⟨rfl, rfl⟩
    · rw [published_level, published_progress, completesAt_some fades, frozen, Channel.advance_frozen fades frozen, fades]
      exact ⟨rfl, rfl⟩
    · intro elapsed
      rw [published_level, published_progress, completesAt_some fades, running]
      by_cases ended : f.duration ≤ elapsed
      · rw [if_pos (by simpa using ended), if_pos ended, Channel.advance_ends fades running ended]
        exact ⟨rfl, fun _ => rfl, fun points more => absurd ended (Nat.not_le.mpr more)⟩
      · have more : elapsed < f.duration := Nat.lt_of_not_le ended
        rw [if_neg (by simpa using more), if_neg ended, Channel.advance_runs fades running more]
        refine ⟨congrArg some (if_neg ended), fun no => absurd no ended, fun points _ curve => ?_⟩
        exact levelNow_running more curve
    · rw [published_master]
      exact (still none_).1
    · rw [published_master]
      exact ((moves m some_).1 ended).1
    · rw [published_master]
      exact ((moves m some_).2 more).1
  · obtain ⟨comp, _, pwm⟩ := frameEvent_outputs s
    refine ⟨frameEvent s, s.published, exec_frameEvent run due, frameEvent_snapshot, fun o none_ => ?_,
      fun black o => ?_, fun host line o c patched => ?_, fun k => ?_, by rw [pwm], by rw [comp]⟩
    · rw [frameEvent_composed, composeOutput_unpatched none_]
    · rw [frameEvent_composed, show (s.comp.hostBlackout || s.comp.lineBlackout) = true by simpa using black,
        composeOutput_black]
    · rw [frameEvent_composed, host, line, Bool.or_false, composeOutput_lit patched]
      rfl
    · rw [pwm]
      exact at_tabulate _ k

end Sys2Proof.Machine
end

section
/-! SUPPORT. Every reply fits a frame (R165, R171), and the bits of a reply on TXD (R164). -/

namespace Sys2Proof.Machine

/-! ## The reply data of every message -/

/-- Status byte and data fit the payload of a frame (R165, R171). -/
def Resp.Fits (r : Resp) : Prop := r.data.length ≤ 59

section
variable {s : State}

@[simp] theorem fits_status (st : Status) : Resp.Fits ⟨st, []⟩ := Nat.zero_le _

@[simp] theorem fits_refuse (st : Status) : (refuse st s).2.Fits := Nat.zero_le _

@[simp] theorem refuse_data (st : Status) : (refuse st s).2.data = [] := rfl

@[simp] theorem length_byte1 (n : Nat) : (byte1 n).length = 1 := rfl
@[simp] theorem length_byte2 (n : Nat) : (byte2 n).length = 2 := rfl
@[simp] theorem length_byte3 (n : Nat) : (byte3 n).length = 3 := rfl
@[simp] theorem length_opt2 (o : Option Nat) : (opt2 o).length = 2 := by cases o <;> rfl
@[simp] theorem length_opt4 (o : Option Nat) : (opt4 o).length = 4 := by cases o <;> rfl

/-- A page of equal entries is at most as long as its size allows. -/
theorem length_flatMap_page_le {α : Type} {f : α → List Byte} {k : Nat} (each : ∀ x, (f x).length = k)
    (size first : Nat) (items : List α) : ((page size first items).flatMap f).length ≤ k * size := by
  rw [length_flatMap_const each, length_page]
  exact Nat.mul_le_mul_left k (Nat.min_le_left _ _)

/-! ### The node -/

theorem identifyOp_fits : (identifyOp s).2.Fits := by
  simp only [identifyOp, Resp.Fits, List.length_append, length_byte1, length_byte2]
  omega

theorem readStatusOp_fits : (readStatusOp s).2.Fits := by
  simp only [readStatusOp, Resp.Fits, List.length_append, length_byte1, length_byte2, length_byte4]
  omega

theorem configureOp_fits (pairs : List RawPair) : (configureOp pairs s).2.Fits := by
  unfold configureOp
  split <;> simp [Resp.Fits]

theorem readConfigOp_fits (first count : Byte) : (readConfigOp first count s).2.Fits := by
  unfold readConfigOp
  dsimp only
  split
  · exact fits_refuse _
  · next range =>
    have values := length_flatMap_const (f := fun i => byte4 (s.working.params.value (first.toNat + i))) (k := 4)
      (fun _ => rfl) (List.range count.toNat)
    rw [List.length_range] at values
    simp only [Resp.Fits, List.length_append, length_byte1, values]
    omega

theorem resetOp_fits (mode : Byte) : (resetOp mode s).2.Fits := by
  unfold resetOp
  split
  · split <;> simp
  · split <;> simp

/-! ### The compositor -/

theorem patchOp_fits (first : Byte) (records : List RawOutput) : (patchOp first records s).2.Fits := by
  unfold patchOp
  dsimp only
  split
  · exact fits_refuse _
  · split <;> simp [Resp.Fits]

theorem readPatchOp_fits (first count : Byte) : (readPatchOp first count s).2.Fits := by
  unfold readPatchOp
  dsimp only
  split
  · exact fits_refuse _
  · next range =>
    have entries := length_flatMap_page_le (f := patchEntry s) (k := 8) (fun _ => rfl) count.toNat (first.toNat - 1)
      (List.finRange 40)
    simp only [Resp.Fits, List.length_append, length_byte1, length_byte2]
    omega

theorem setBlackoutOp_fits (state : Byte) : (setBlackoutOp state s).2.Fits := by
  unfold setBlackoutOp
  split <;> simp [Resp.Fits]

/-! ### The show editor -/

theorem editCueOp_fits (cue : Half) : (editCueOp cue s).2.Fits := by
  unfold editCueOp
  dsimp only
  split
  · exact fits_refuse _
  · split
    · exact fits_refuse _
    · split <;> simp [Resp.Fits]

theorem cueActionsOp_fits (records : List RawAction) : (cueActionsOp records s).2.Fits := by
  unfold cueActionsOp
  split
  · split
    · exact fits_refuse _
    · split <;> simp [Resp.Fits]
  · exact fits_refuse _
  · exact fits_refuse _

theorem cueFollowOp_fits (follow : Word) : (cueFollowOp follow s).2.Fits := by
  unfold cueFollowOp
  split
  · split <;> simp
  · exact fits_refuse _
  · exact fits_refuse _

theorem editCurveOp_fits (id count : Byte) : (editCurveOp id count s).2.Fits := by
  unfold editCurveOp
  split
  · exact fits_refuse _
  · split <;> simp

theorem curvePointsOp_fits (first : Byte) (points : List RawPoint) : (curvePointsOp first points s).2.Fits := by
  unfold curvePointsOp
  split
  · split
    · exact fits_refuse _
    · split <;> simp [Resp.Fits]
  · exact fits_refuse _
  · exact fits_refuse _

theorem editAbortOp_fits : (editAbortOp s).2.Fits := by
  unfold editAbortOp
  split <;> simp

theorem editCommitOp_fits : (editCommitOp s).2.Fits := by
  unfold editCommitOp
  split
  · exact fits_refuse _
  · split <;> simp [commitRefused, commitData, Resp.Fits]
  · split <;> simp [commitRefused, commitData, Resp.Fits]

theorem deleteCueOp_fits (cue : Half) : (deleteCueOp cue s).2.Fits := by
  unfold deleteCueOp
  dsimp only
  split
  · exact fits_refuse _
  · split <;> simp [Resp.Fits]

theorem dropCurveOp_fits (id : Byte) : (dropCurveOp id s).2.Fits := by
  unfold dropCurveOp
  dsimp only
  split
  · exact fits_refuse _
  · split
    · exact fits_refuse _
    · split <;> simp [Resp.Fits]

theorem readCueOp_fits (cue : Half) (first : Byte) : (readCueOp cue first s).2.Fits := by
  unfold readCueOp
  dsimp only
  split
  · exact fits_refuse _
  · split
    · exact fits_refuse _
    · next q _ =>
      split
      · exact fits_refuse _
      · have records := length_flatMap_page_le (f := Action.bytes) (k := 10) (fun _ => rfl) 5 first.toNat q.actions
        simp only [Resp.Fits, List.length_append, length_byte1, length_byte2, length_opt4]
        omega

theorem readCurveOp_fits (id first : Byte) : (readCurveOp id first s).2.Fits := by
  unfold readCurveOp
  split
  · exact fits_refuse _
  · split
    · exact fits_refuse _
    · next pts _ =>
      split
      · exact fits_refuse _
      · have points := length_flatMap_page_le (f := Point.bytes) (k := 4) (fun _ => rfl) 12 first.toNat pts
        simp only [Resp.Fits, List.length_append, length_byte1]
        omega

theorem listCuesOp_fits (after : Half) : (listCuesOp after s).2.Fits := by
  unfold listCuesOp
  split
  · exact fits_refuse _
  · have numbers := length_flatMap_page_le (f := byte2) (k := 2) (fun _ => rfl) 24 0
      ((s.working.cues.map (·.number)).filter fun n => decide (after.toNat < n))
    simp only [Resp.Fits, List.length_append, length_byte1, length_byte2]
    omega

/-! ### The player -/

theorem goOp_fits (k : GoKind) (source : Source) : (goOp k source s).2.Fits := by
  unfold goOp
  split <;> simp [Resp.Fits]

theorem pauseOp_fits : (pauseOp s).2.Fits := by
  unfold pauseOp
  split <;> simp [Resp.Fits]

theorem resumeOp_fits : (resumeOp s).2.Fits := by
  unfold resumeOp
  split <;> simp [Resp.Fits]

theorem releaseOp_fits (time : Half) : (releaseOp time s).2.Fits := by
  unfold releaseOp
  split <;> simp [Resp.Fits]

theorem length_playerCommon : (playerCommon s).length = 12 := by
  simp only [playerCommon, List.length_append, length_byte1, length_byte2, length_opt4]

theorem readPlayerOp_fits (part first : Byte) : (readPlayerOp part first s).2.Fits := by
  unfold readPlayerOp
  dsimp only
  split
  · split
    · exact fits_refuse _
    · have entries := length_flatMap_page_le (f := Live.bytes) (k := 4) (fun _ => rfl) 10 first.toNat s.player.live
      simp only [Resp.Fits, List.length_append, length_byte1, length_playerCommon]
      omega
  · split
    · split
      · exact fits_refuse _
      · have entries := length_flatMap_page_le (f := schedBytes s) (k := 12) (fun _ => rfl) 3 first.toNat s.player.sched
        simp only [Resp.Fits, List.length_append, length_byte1, length_playerCommon]
        omega
    · exact fits_refuse _

/-! ### Direct control -/

theorem fadeOp_fits (mask : ChanMask) (target : Half) (time : Word) (curve tag : Byte) :
    (fadeOp mask target time curve tag s).2.Fits := by
  unfold fadeOp
  split <;> simp [Resp.Fits]

theorem parkOp_fits (mask : ChanMask) (level : Half) : (parkOp mask level s).2.Fits := by
  unfold parkOp
  split
  · exact fits_refuse _
  · simp [Resp.Fits]

theorem unparkOp_fits (mask : ChanMask) : (unparkOp mask s).2.Fits := by
  unfold unparkOp
  split
  · exact fits_refuse _
  · simp [Resp.Fits]

theorem setMasterOp_fits (level time : Half) : (setMasterOp level time s).2.Fits := by
  unfold setMasterOp
  split <;> simp [Resp.Fits]

theorem length_channelEntry (c : Chan) : (channelEntry s c).length = 10 := by
  unfold channelEntry
  dsimp only
  split <;> rfl

theorem readChannelsOp_fits (first count : Byte) : (readChannelsOp first count s).2.Fits := by
  unfold readChannelsOp
  dsimp only
  split
  · exact fits_refuse _
  · next range =>
    have entries := length_flatMap_page_le (length_channelEntry (s := s)) count.toNat (first.toNat - 1) channels
    simp only [Resp.Fits, List.length_append, length_byte1, length_byte2, length_byte3, length_opt2]
    omega

/-! ### The arm monitor -/

theorem length_armBytes (d : Option ArmDef) : (armBytes d).length = 17 := by
  cases d with
  | none => rfl
  | some d =>
    simp only [armBytes, List.length_append, length_byte1, d.condition.length_bytes, d.action.length_bytes]

theorem armOp_fits (slot mode : Byte) (condition action : List Byte) : (armOp slot mode condition action s).2.Fits := by
  unfold armOp
  split
  · simp [Resp.Fits]
  · exact fits_refuse _

theorem disarmOp_fits (slot : Byte) : (disarmOp slot s).2.Fits := by
  unfold disarmOp
  split
  · exact fits_refuse _
  · simp [Resp.Fits]

theorem readArmOp_fits (slot : Byte) : (readArmOp slot s).2.Fits := by
  unfold readArmOp
  split
  · exact fits_refuse _
  · simp only [Resp.Fits, List.length_append, length_byte1, length_opt2, length_armBytes]
    omega

/-! ### Reports and show memory -/

theorem Report.length_dataBytes (d : Report) : d.dataBytes.length = 6 := by cases d <;> rfl

theorem length_headBytes_le (u : ReportUnit) : u.headBytes.length ≤ 12 := by
  unfold ReportUnit.headBytes
  split
  · simp only [Record.bytes, List.length_append, length_byte1, length_byte4, Report.length_dataBytes]
    omega
  · exact Nat.zero_le _

theorem pollOp_fits (ack : Byte) : (pollOp ack s).2.Fits := by
  have head := length_headBytes_le (s.report.settle s.now ack.toNat).carry
  simp only [pollOp, Resp.Fits, List.length_append, length_byte1]
  omega

theorem storeShowOp_fits : (storeShowOp s).2.Fits := by
  unfold storeShowOp
  split
  · exact fits_refuse _
  · split <;> simp [Resp.Fits, length_byte4]

theorem loadShowOp_fits : (loadShowOp s).2.Fits := by
  unfold loadShowOp
  split
  · exact fits_refuse _
  · split
    · exact fits_refuse _
    · split <;> simp [Resp.Fits, length_byte4]

theorem length_recordBytes (r : Option Nat) : (recordBytes r).length = 5 := by cases r <;> rfl

theorem length_storeBytes (r : Option Store) : (storeBytes r).length = 5 := by cases r <;> rfl

theorem length_resultBytes (r : Option StoreResult) : (resultBytes r).length = 6 := by cases r <;> rfl

theorem readMemoryOp_fits : (readMemoryOp s).2.Fits := by
  simp only [readMemoryOp, Resp.Fits, List.length_append, length_byte1, length_recordBytes, length_storeBytes,
    length_resultBytes]
  omega

/-- What a block answers fits the payload of a reply (R165, R171). -/
theorem runMessage_fits (via : Via) (m : Message) : (runMessage via m s).2.Fits := by
  cases m with
  | identify => exact identifyOp_fits
  | readStatus => exact readStatusOp_fits
  | configure pairs => exact configureOp_fits pairs
  | readConfig first count => exact readConfigOp_fits first count
  | patch first records => exact patchOp_fits first records
  | readPatch first count => exact readPatchOp_fits first count
  | reset mode => exact resetOp_fits mode
  | editCurve id count => exact editCurveOp_fits id count
  | curvePoints first points => exact curvePointsOp_fits first points
  | editCue cue => exact editCueOp_fits cue
  | cueActions records => exact cueActionsOp_fits records
  | cueFollow follow => exact cueFollowOp_fits follow
  | editCommit => exact editCommitOp_fits
  | editAbort => exact editAbortOp_fits
  | deleteCue cue => exact deleteCueOp_fits cue
  | dropCurve id => exact dropCurveOp_fits id
  | readCue cue first => exact readCueOp_fits cue first
  | readCurve id first => exact readCurveOp_fits id first
  | listCues after => exact listCuesOp_fits after
  | go => exact goOp_fits .go via.source
  | goTo cue => exact goOp_fits (.goTo cue.toNat) via.source
  | back => exact goOp_fits .back via.source
  | pause => exact pauseOp_fits
  | resume => exact resumeOp_fits
  | release time => exact releaseOp_fits time
  | readPlayer part first => exact readPlayerOp_fits part first
  | fade mask target time curve tag => exact fadeOp_fits mask target time curve tag
  | park mask level => exact parkOp_fits mask level
  | unpark mask => exact unparkOp_fits mask
  | setMaster level time => exact setMasterOp_fits level time
  | setBlackout state => exact setBlackoutOp_fits state
  | readChannels first count => exact readChannelsOp_fits first count
  | arm slot mode condition action => exact armOp_fits slot mode condition action
  | disarm slot => exact disarmOp_fits slot
  | readArm slot => exact readArmOp_fits slot
  | poll ack => exact pollOp_fits ack
  | storeShow => exact storeShowOp_fits
  | loadShow => exact loadShowOp_fits
  | readMemory => exact readMemoryOp_fits

end

/-! ## The reply of a new command -/

/-- The checks of the line interface hand on the message they are given (R170). -/
theorem lineCheck_same {m n : Message} (ok : lineCheck m = .ok n) : n = m := by
  unfold lineCheck at ok
  split at ok
  · cases ok
  · split at ok <;> cases ok
    rfl

/-- The reply built for a new command is that of a response that fits, under the node's own address (R170, R171). -/
theorem exec_new_answers {h : Hdr} {m : Message} {s : State} (new : TakesNew h (kindOf m) s) :
    ∃ (r : Resp) (u : State), r.Fits ∧ u.ownAddr = h.addr
      ∧ exec (commandOf h m) s = .next (answer h.seq (kindOf m) r u) := by
  have own : s.taken.ownAddr = h.addr := (taken_ownAddr s).trans (ownAddr_of_names new.2.1)
  rw [exec_commandOf]
  cases check : lineCheck m with
  | error st => exact ⟨⟨st, []⟩, s.taken, fits_status st, own, by rw [frameArrives_failed h m s new st check]⟩
  | ok n =>
    obtain rfl : m = n := (lineCheck_same check).symm
    refine ⟨_, _, runMessage_fits .node m, ?_, by rw [frameArrives_new h m s new check]⟩
    rw [State.ownAddr, (runMessage_kept .node m s.taken).line]
    exact own

/-! ## The reply on the line -/

theorem length_characterBits (b : Byte) : (characterBits b).length = 10 := rfl

theorem characterBits_data (b : Byte) {j : Nat} (data : j < 8) : (characterBits b)[j + 1]? = some (b.getLsbD j) := by
  simp [characterBits, List.getElem?_append, data]

/-- The bits of a frame stand in its characters, ten to each (R164). -/
theorem frameBits_at {frame : List Byte} {i j : Nat} {b : Byte} (inside : j < 10) (at_ : frame[i]? = some b) :
    (frame.flatMap characterBits)[10 * i + j]? = (characterBits b)[j]? := by
  induction frame generalizing i with
  | nil => cases at_
  | cons c rest ih =>
    rw [List.flatMap_cons]
    cases i with
    | zero =>
      obtain rfl : c = b := by simpa using at_
      rw [Nat.mul_zero, Nat.zero_add, List.getElem?_append_left inside]
    | succ i =>
      rw [List.getElem?_append_right (by rw [length_characterBits]; omega), length_characterBits,
        show 10 * (i + 1) + j - 10 = 10 * i + j by omega]
      exact ih (by simpa using at_)

section
variable {s : State} {frame : List Byte} {age : Nat}

theorem exec_replyStart (running : s.phase = .running) : exec .replyStart s = .next (startReply s) := by
  change Host.Outcome.next (onlyIf s.runs startReply s) = _
  rw [show s.runs = true from decide_eq_true running]
  rfl

theorem startReply_due (waiting : s.line.reply = .waiting frame age) (ready : 100 ≤ age) :
    startReply s = s.setLine { s.line with reply := .sending frame 0 } := by
  unfold startReply
  rw [waiting]
  exact if_pos ready

theorem startReply_early (waiting : s.line.reply = .waiting frame age) (early : age < 100) : startReply s = s := by
  unfold startReply
  rw [waiting]
  exact if_neg (Nat.not_le.mpr early)

theorem State.de_iff : (∃ frame age, s.line.reply = .sending frame age) ↔ s.de = true := by
  unfold State.de
  cases s.line.reply <;> simp

theorem State.txd_idle (silent : s.de = false) : s.txd = true := by
  unfold State.de at silent
  unfold State.txd
  cases e : s.line.reply with
  | idle => rfl
  | waiting _ _ => rfl
  | sending _ _ => rw [e] at silent; cases silent

/-- TXD carries the bit of the character whose time it is (R164). -/
theorem State.txd_sending {b : Byte} (sending : s.line.reply = .sending frame age)
    (at_ : frame[age * rateOf s.line.lineRate / 1000000 / 10]? = some b) :
    s.txd = ((characterBits b)[age * rateOf s.line.lineRate / 1000000 % 10]?).getD true := by
  have bit := frameBits_at (Nat.mod_lt (age * rateOf s.line.lineRate / 1000000) (by decide : 10 > 0)) at_
  rw [Nat.div_add_mod] at bit
  unfold State.txd
  rw [sending]
  dsimp only
  rw [List.headD_eq_head?_getD, List.head?_drop, bit]

end

/-- Settles O8: the reply by what each block may answer, TXD by the place of a bit in its character. -/
theorem repliesAreBuiltAndSent : Obligations.RepliesAreBuiltAndSent := by
  refine ⟨fun h m s t new next => ?_, fun s frame age running => ⟨fun waiting ready => ?_, fun waiting early => ?_,
    fun sending noReset sent => ?_, fun sending early => ?_⟩, fun s => ⟨State.de_iff, State.txd_idle, ?_⟩⟩
  · obtain ⟨r, u, fits, own, answers⟩ := exec_new_answers new
    obtain rfl : answer h.seq (kindOf m) r u = t := by
      rw [answers] at next
      cases next
      rfl
    refine ⟨r.status, r.data, fits, ?_, rfl⟩
    rw [← own]
    rfl
  · refine ⟨_, exec_replyStart running, ?_, ?_⟩
    · rw [startReply_due waiting ready]
      rfl
    · rw [startReply_due waiting ready]
      rfl
  · rw [exec_replyStart running, startReply_early waiting early]
  · refine ⟨s.replied, ?_, rfl, rfl⟩
    rw [exec_replyEnd running, endReply_done sending sent noReset]
  · rw [exec_replyEnd running, endReply_early sending early]
  · intro frame age b sending
    dsimp only
    intro at_
    rw [State.txd_sending sending at_]
    refine ⟨fun start => ?_, fun stop => ?_, fun j data place => ?_⟩
    · rw [start]
      rfl
    · rw [stop]
      rfl
    · rw [place, characterBits_data b data]
      rfl

end Sys2Proof.Machine
end
